-- ==== Sys2Proof/Word.lean ====
section
/-! DEFINITION. The word widths of the station frames and of the axis bus (10, R179; 07, section 7.2). -/

namespace Sys2Proof

/-- One byte on a station line or on the axis bus. -/
abbrev Byte := BitVec 8
/-- A 2-byte field of a BODY. -/
abbrev Half := BitVec 16
/-- A 4-byte field of a BODY, and a position on the axis bus. -/
abbrev Word := BitVec 32

end Sys2Proof
end

