-- ==== Sys2Proof/Syntax.lean ====
section
/-! DEFINITION. The commands: one constructor per row of spec/opcode_table.json, with the row's operands. -/

namespace Sys2Proof

/-- An operator station, known by the port its frames arrive on (10, section 10.1). -/
inductive Station where
  | a
  | b
  | c
  deriving DecidableEq, Repr

/-- FL0 to FL5. -/
abbrev FlightId := Fin 6
/-- AX0 to AX11. -/
abbrev AxisId := Fin 12
/-- Reflex link 0 to 23. -/
abbrev LinkId := Fin 24
/-- Tension slot 0 to 7. -/
abbrev SlotId := Fin 8
/-- SNS0 to SNS15. -/
abbrev LineId := Fin 16

/-- The level of a sense line. -/
inductive Level where
  | low
  | high
  deriving DecidableEq, Repr

/-- The commands of the block. A request row carries its station and the fields of its BODY at their widths on the line
(10, R179), out-of-range values included; an event row carries what the event names. -/
inductive Instr where
  /-- RESETN_ASSERT (07, R124; 10, R172). -/
  | resetnAssert
  /-- RESET_END (03, R42). -/
  | resetEnd
  /-- CLAIM (06, R107): flight, TAKE flag. -/
  | claim (st : Station) (flight take : Byte)
  /-- RELEASE (06, R109). -/
  | release (st : Station) (flight : Byte)
  /-- BIND (01, R7): flight, axes in member order. -/
  | bind (st : Station) (flight : Byte) (axes : List Byte)
  /-- UNBIND (01, R9). -/
  | unbind (st : Station) (flight : Byte)
  /-- CONFIGURE_AXIS (01, R5): axis, drive address, soft limits, axis vmax, axis amax, following window, tension slot
  or 0xFF. -/
  | configureAxis (st : Station) (axis address : Byte) (lower upper vmax : Word) (amax : Half) (window : Word)
      (slot : Byte)
  /-- SET_FLIGHT_LIMITS (01, R20): hold deceleration, load min, load max. -/
  | setFlightLimits (st : Station) (flight : Byte) (holdDecel loadMin loadMax : Half)
  /-- ARM (01, R12). -/
  | arm (st : Station) (flight : Byte)
  /-- GO (02, R29). -/
  | go (st : Station) (flight : Byte)
  /-- RESUME (05, R90). -/
  | resume (st : Station) (flight : Byte)
  /-- CANCEL (05, R92). -/
  | cancel (st : Station) (flight : Byte)
  /-- PARK (01, R18). -/
  | park (st : Station) (flight : Byte)
  /-- RESET_FLIGHT (05, R99). -/
  | resetFlight (st : Station) (flight : Byte)
  /-- OPEN_CUE (02, R28). -/
  | openCue (st : Station) (flight : Byte)
  /-- CLOSE_CUE (02, R28). -/
  | closeCue (st : Station) (flight : Byte)
  /-- HOLD (05, R83). -/
  | hold (st : Station) (flight : Byte)
  /-- HOLD_ALL (05, R84). -/
  | holdAll (st : Station)
  /-- STOP (05, R94): a flight, or 0xFF for ALL. -/
  | stop (st : Station) (flight : Byte)
  /-- APPEND (02, R24): tag, target presence, four targets, vmax, a_up, a_dn, dwell, start kind, segment flags. -/
  | append (st : Station) (flight : Byte) (tag : Half) (presence : Byte) (t0 t1 t2 t3 vmax : Word)
      (aUp aDn dwell : Half) (start flags : Byte)
  /-- FLUSH (02, R26). -/
  | flush (st : Station) (flight : Byte)
  /-- SET_LINK (09, R163): link, source, condition, action, target codes. -/
  | setLink (st : Station) (link source condition action target : Byte)
  /-- CLEAR_LINK (09, R164). -/
  | clearLink (st : Station) (link : Byte)
  /-- SET_SLOT (08, R154): slot, input, enabled, tare, high limit, low limit, slack level. -/
  | setSlot (st : Station) (slot input enabled : Byte) (tare high low slack : Half)
  /-- SCAN (08, R147): mode code. -/
  | scan (st : Station) (mode : Byte)
  /-- INJECT (08, R155): slot, raw value. -/
  | inject (st : Station) (slot : Byte) (raw : Half)
  /-- STATUS (10, R182). -/
  | status (st : Station)
  /-- READ_FLIGHT (10, R183). -/
  | readFlight (st : Station) (flight : Byte)
  /-- READ_AXIS (10, R184). -/
  | readAxis (st : Station) (axis : Byte)
  /-- READ_SLOTS (10, R185). -/
  | readSlots (st : Station)
  /-- READ_LINES (10, R186): the filter enables, where the BODY carries them. -/
  | readLines (st : Station) (filters : Option Half)
  /-- UNKNOWN_KIND (10, R177): a request with this KIND byte is taken. -/
  | unknownKind (st : Station) (kind : Byte)
  /-- BYTE_RECEIVED (10, R174): a byte on this port, and whether its stop bit was received high. -/
  | byteReceived (st : Station) (byte : Byte) (stopOk : Bool)
  /-- GAP (10, R175): more than 10 ms without a next byte on this port. -/
  | gap (st : Station)
  /-- REPLY_SENT (10, R176): the last byte of this port's reply has been sent. -/
  | replySent (st : Station)
  /-- STEP_EXPIRY (03, R42). -/
  | stepExpiry
  /-- DWELL_EXPIRY (02, R38) of one flight. -/
  | dwellExpiry (f : FlightId)
  /-- BRAKE_TIMEOUT (01, R15) of one flight. -/
  | brakeTimeout (f : FlightId)
  /-- SILENCE (06, R117) of one station. -/
  | silence (st : Station)
  /-- SNDR_PHASE_EXPIRY (09, R170). -/
  | sndrPhaseExpiry
  /-- EXCHANGE_START (07, R128). -/
  | exchangeStart
  /-- HELD_LINE (07, R132). -/
  | heldLine
  /-- WRITE_COMPLETE (07, R127). -/
  | writeComplete
  /-- READ_COMPLETE (07, R130): the position, status byte and check byte the drive sent. -/
  | readComplete (position : Word) (status check : Byte)
  /-- ANSWER_HOLD_TIMEOUT (07, R129). -/
  | answerHoldTimeout
  /-- MISSED_EXCHANGE (07, R131). -/
  | missedExchange
  /-- RAW_LEVEL_CHANGE (09, R159): the line and its new raw level. -/
  | rawLevelChange (line : LineId) (level : Level)
  /-- FILTER_ACCEPT (09, R159): a pending level has held for 4 ms. -/
  | filterAccept (line : LineId)
  /-- LINE_SETTLE (09, R158): an unsettled line's raw level has held for 4 ms. -/
  | lineSettle (line : LineId)
  /-- CONVERSION_COMPLETE (08, R145): the raw value sampled by the conversion in flight. -/
  | conversionComplete (raw : BitVec 12)
  deriving DecidableEq, Repr

/-- What decoding a taken request's KIND and BODY gives (10, R177 checks 1 and 2). -/
inductive Decoded where
  | unknownKind
  | badLength
  | request (i : Instr)
  deriving DecidableEq, Repr

end Sys2Proof
end

