-- ==== Sys2Proof/Decode.lean ====
section
/-! DEFINITION. From the KIND and BODY of a station frame to the request they spell and back (10, R177, R179), and the byte order
of both links (00_scope.md: most significant byte first). The opcode table gives no row any bits, so
`decodeTableWord` answers none. -/

namespace Sys2Proof

/-! ### Byte order -/

/-- The two bytes of a 2-byte field, high byte first. -/
def halfBytes (h : Half) : List Byte := [h.extractLsb' 8 8, h.extractLsb' 0 8]

/-- The four bytes of a 4-byte field, high byte first. -/
def wordBytes (w : Word) : List Byte :=
  [w.extractLsb' 24 8, w.extractLsb' 16 8, w.extractLsb' 8 8, w.extractLsb' 0 8]

/-- Byte i of a BODY. -/
def byteAt (body : List Byte) (i : Nat) : Byte := body.getD i 0

/-- The 2-byte field that begins at byte i of a BODY. -/
def halfAt (body : List Byte) (i : Nat) : Half := byteAt body i ++ byteAt body (i + 1)

/-- The 4-byte field that begins at byte i of a BODY. -/
def wordAt (body : List Byte) (i : Nat) : Word :=
  ((byteAt body i ++ byteAt body (i + 1) : BitVec 16) ++ byteAt body (i + 2) : BitVec 24) ++ byteAt body (i + 3)

/-! ### The request catalogue (R179) -/

def kindClaim : Byte := 0x01
def kindRelease : Byte := 0x02
def kindBind : Byte := 0x08
def kindUnbind : Byte := 0x09
def kindConfigureAxis : Byte := 0x0A
def kindSetFlightLimits : Byte := 0x0B
def kindArm : Byte := 0x10
def kindGo : Byte := 0x11
def kindResume : Byte := 0x12
def kindCancel : Byte := 0x13
def kindPark : Byte := 0x14
def kindResetFlight : Byte := 0x15
def kindOpenCue : Byte := 0x16
def kindCloseCue : Byte := 0x17
def kindHold : Byte := 0x18
def kindHoldAll : Byte := 0x19
def kindStop : Byte := 0x1A
def kindAppend : Byte := 0x20
def kindFlush : Byte := 0x21
def kindSetLink : Byte := 0x28
def kindClearLink : Byte := 0x29
def kindSetSlot : Byte := 0x30
def kindScan : Byte := 0x31
def kindInject : Byte := 0x32
def kindStatus : Byte := 0x40
def kindReadFlight : Byte := 0x41
def kindReadAxis : Byte := 0x42
def kindReadSlots : Byte := 0x43
def kindReadLines : Byte := 0x44

/-- The KIND codes of the catalogue (R179). -/
def requestKinds : List Byte :=
  [kindClaim, kindRelease, kindBind, kindUnbind, kindConfigureAxis, kindSetFlightLimits, kindArm, kindGo, kindResume,
   kindCancel, kindPark, kindResetFlight, kindOpenCue, kindCloseCue, kindHold, kindHoldAll, kindStop, kindAppend,
   kindFlush, kindSetLink, kindClearLink, kindSetSlot, kindScan, kindInject, kindStatus, kindReadFlight, kindReadAxis,
   kindReadSlots, kindReadLines]

/-- Whether a KIND is a request code (R177 check 1). -/
def isRequestKind (kind : Byte) : Bool := requestKinds.contains kind

/-- A request whose BODY must have length n (R177 check 2). -/
def ofLength (n : Nat) (body : List Byte) (i : Instr) : Decoded :=
  if body.length = n then .request i else .badLength

/-- R177 checks 1 and 2: the request that a KIND and BODY from a station spell, by the catalogue of R179. -/
def decodeRequest (st : Station) (kind : Byte) (body : List Byte) : Decoded :=
  match kind.toNat with
  | 0x01 => ofLength 2 body (.claim st (byteAt body 0) (byteAt body 1))
  | 0x02 => ofLength 1 body (.release st (byteAt body 0))
  | 0x08 => if 2 ≤ body.length ∧ body.length ≤ 5 then .request (.bind st (byteAt body 0) body.tail) else .badLength
  | 0x09 => ofLength 1 body (.unbind st (byteAt body 0))
  | 0x0A => ofLength 21 body (.configureAxis st (byteAt body 0) (byteAt body 1) (wordAt body 2) (wordAt body 6)
      (wordAt body 10) (halfAt body 14) (wordAt body 16) (byteAt body 20))
  | 0x0B => ofLength 7 body (.setFlightLimits st (byteAt body 0) (halfAt body 1) (halfAt body 3) (halfAt body 5))
  | 0x10 => ofLength 1 body (.arm st (byteAt body 0))
  | 0x11 => ofLength 1 body (.go st (byteAt body 0))
  | 0x12 => ofLength 1 body (.resume st (byteAt body 0))
  | 0x13 => ofLength 1 body (.cancel st (byteAt body 0))
  | 0x14 => ofLength 1 body (.park st (byteAt body 0))
  | 0x15 => ofLength 1 body (.resetFlight st (byteAt body 0))
  | 0x16 => ofLength 1 body (.openCue st (byteAt body 0))
  | 0x17 => ofLength 1 body (.closeCue st (byteAt body 0))
  | 0x18 => ofLength 1 body (.hold st (byteAt body 0))
  | 0x19 => ofLength 0 body (.holdAll st)
  | 0x1A => ofLength 1 body (.stop st (byteAt body 0))
  | 0x20 => ofLength 32 body (.append st (byteAt body 0) (halfAt body 1) (byteAt body 3) (wordAt body 4) (wordAt body 8)
      (wordAt body 12) (wordAt body 16) (wordAt body 20) (halfAt body 24) (halfAt body 26) (halfAt body 28)
      (byteAt body 30) (byteAt body 31))
  | 0x21 => ofLength 1 body (.flush st (byteAt body 0))
  | 0x28 => ofLength 5 body (.setLink st (byteAt body 0) (byteAt body 1) (byteAt body 2) (byteAt body 3) (byteAt body 4))
  | 0x29 => ofLength 1 body (.clearLink st (byteAt body 0))
  | 0x30 => ofLength 11 body (.setSlot st (byteAt body 0) (byteAt body 1) (byteAt body 2) (halfAt body 3) (halfAt body 5)
      (halfAt body 7) (halfAt body 9))
  | 0x31 => ofLength 1 body (.scan st (byteAt body 0))
  | 0x32 => ofLength 3 body (.inject st (byteAt body 0) (halfAt body 1))
  | 0x40 => ofLength 0 body (.status st)
  | 0x41 => ofLength 1 body (.readFlight st (byteAt body 0))
  | 0x42 => ofLength 1 body (.readAxis st (byteAt body 0))
  | 0x43 => ofLength 0 body (.readSlots st)
  | 0x44 =>
    if body.length = 0 then .request (.readLines st none)
    else if body.length = 2 then .request (.readLines st (some (halfAt body 0)))
    else .badLength
  | _ => .unknownKind

/-- The station, KIND and BODY of the frame that carries a request (R179); none for a command that no frame carries, and for
UNKNOWN_KIND, whose KIND is in no catalogue. -/
def encodeRequest : Instr → Option (Station × Byte × List Byte)
  | .claim st flight take => some (st, kindClaim, [flight, take])
  | .release st flight => some (st, kindRelease, [flight])
  | .bind st flight axes => some (st, kindBind, flight :: axes)
  | .unbind st flight => some (st, kindUnbind, [flight])
  | .configureAxis st axis address lower upper vmax amax window slot =>
    some (st, kindConfigureAxis, [axis, address] ++ wordBytes lower ++ wordBytes upper ++ wordBytes vmax ++
      halfBytes amax ++ wordBytes window ++ [slot])
  | .setFlightLimits st flight holdDecel loadMin loadMax =>
    some (st, kindSetFlightLimits, [flight] ++ halfBytes holdDecel ++ halfBytes loadMin ++ halfBytes loadMax)
  | .arm st flight => some (st, kindArm, [flight])
  | .go st flight => some (st, kindGo, [flight])
  | .resume st flight => some (st, kindResume, [flight])
  | .cancel st flight => some (st, kindCancel, [flight])
  | .park st flight => some (st, kindPark, [flight])
  | .resetFlight st flight => some (st, kindResetFlight, [flight])
  | .openCue st flight => some (st, kindOpenCue, [flight])
  | .closeCue st flight => some (st, kindCloseCue, [flight])
  | .hold st flight => some (st, kindHold, [flight])
  | .holdAll st => some (st, kindHoldAll, [])
  | .stop st flight => some (st, kindStop, [flight])
  | .append st flight tag presence t0 t1 t2 t3 vmax aUp aDn dwell start flags =>
    some (st, kindAppend, [flight] ++ halfBytes tag ++ [presence] ++ wordBytes t0 ++ wordBytes t1 ++ wordBytes t2 ++
      wordBytes t3 ++ wordBytes vmax ++ halfBytes aUp ++ halfBytes aDn ++ halfBytes dwell ++ [start, flags])
  | .flush st flight => some (st, kindFlush, [flight])
  | .setLink st link source condition action target =>
    some (st, kindSetLink, [link, source, condition, action, target])
  | .clearLink st link => some (st, kindClearLink, [link])
  | .setSlot st slot input enabled tare high low slack =>
    some (st, kindSetSlot, [slot, input, enabled] ++ halfBytes tare ++ halfBytes high ++ halfBytes low ++ halfBytes slack)
  | .scan st mode => some (st, kindScan, [mode])
  | .inject st slot raw => some (st, kindInject, [slot] ++ halfBytes raw)
  | .status st => some (st, kindStatus, [])
  | .readFlight st flight => some (st, kindReadFlight, [flight])
  | .readAxis st axis => some (st, kindReadAxis, [axis])
  | .readSlots st => some (st, kindReadSlots, [])
  | .readLines st none => some (st, kindReadLines, [])
  | .readLines st (some w) => some (st, kindReadLines, halfBytes w)
  | .resetnAssert | .resetEnd | .unknownKind .. | .byteReceived .. | .gap .. | .replySent .. | .stepExpiry => none
  | .dwellExpiry .. | .brakeTimeout .. | .silence .. | .sndrPhaseExpiry | .exchangeStart | .heldLine => none
  | .writeComplete | .readComplete .. | .answerHoldTimeout | .missedExchange | .rawLevelChange .. => none
  | .filterAccept .. | .lineSettle .. | .conversionComplete .. => none

/-- The command that a word of nbits bits spells by the opcode table. No row of the table has bits, so no word spells one. -/
def decodeTableWord (_nbits _w : Nat) : Option Instr := none

end Sys2Proof
end

