-- ==== Sys2Proof/Config.lean ====
section
/-! DEFINITION. The free values: what the manual leaves open, as constants without a body, so that no proof can use a
value of theirs. -/

namespace Sys2Proof.Config

/-- The n-th free choice of the run, where the manual says that two or more effects of ONE event are taken "in either
order" (09, R168; 06, R116, R120; 03, R62; 01, R16) or gives their order nowhere (09, R160). Nothing constrains it.
Log entries 6 and 7. -/
opaque freePick : Nat → Nat

/-- The four bytes that READ-FLIGHT reports for a path length or path position that does not fit them (03, R46 forms L
exactly up to 2^36; 10, R183 gives the field 4 bytes and states no value there). Log entry 11. -/
opaque wideReport : Nat → Word

/-- At the faulting read with this free index, whether the trip that the command right behind the read sends the flight meets it
before the read's own trip request (04, R78) or after it (04, R69, R76). Nothing constrains it. Log entry 27. -/
opaque tripMeetsFirst : Nat → Bool

end Sys2Proof.Config
end

