-- ==== Sys2Proof/Machine/State.lean ====
section
/-! DEFINITION. The state of the FC612 as plain data: every record, flag, counter, buffer and output line the manual gives
the part, and the values they take at reset. -/

namespace Sys2Proof.Machine

/-! ### Flights (01, section 1.1; 02, section 2.1; 03, section 3.3) -/

/-- Flight states (01, section 1.6). -/
inductive FlightState where
  | free
  | parked
  | arming
  | ready
  | moving
  | dwell
  | stopping
  | held
  | tripped
  deriving DecidableEq, Repr

/-- The cue gate of a flight (02, R28). -/
inductive CueGate where
  | opened
  | closed
  deriving DecidableEq, Repr

/-- How a segment starts when it reaches the head (02, section 2.5). -/
inductive StartKind where
  | go
  | cue
  | follow
  deriving DecidableEq, Repr

/-- Cause of the last hold taken, with the station or link it names (01, section 1.1; 05, section 5.1). -/
inductive HoldCause where
  | stationHold (st : Station)
  | holdAllStation (st : Station)
  | holdAllLink (link : LinkId)
  | linkHold (link : LinkId)
  | enableLost
  | stationSilent
  deriving DecidableEq, Repr

/-- Why an axis is FAULTED (01, section 1.2). -/
inductive FaultCause where
  | followingError
  | overtravel
  | driveFault
  | driveSilent
  | brakeMismatch
  deriving DecidableEq, Repr

/-- A trip cause with the link, station or axis it carries (01, section 1.1; 05, section 5.5). -/
inductive TripCause where
  | linkTrip (link : LinkId)
  | stationStop (st : Station)
  | axisFault (cause : FaultCause) (axis : AxisId)
  | brakeTimeout (axis : AxisId)
  deriving DecidableEq, Repr

/-- A segment record (02, section 2.1). Positions are µm, speeds fine counts per step. -/
structure Segment where
  tag : Half
  targets : Vector (Option Int) 4
  vmax : Nat
  aUp : Nat
  aDn : Nat
  dwell : Nat
  start : StartKind
  recycle : Bool
  loadCheck : Bool
  deriving DecidableEq, Repr

/-- The active segment with its path state (02, R34; 03, section 3.3). `starts` lists the start position of each member
slot. -/
structure Active where
  seg : Segment
  starts : List Int
  pathLen : Nat
  pos : Nat
  speed : Nat
  vEff : Nat
  aUpEff : Nat
  aDnEff : Nat
  aHoldEff : Nat
  aStop : Option Nat
  byCue : Bool
  deriving DecidableEq, Repr

/-- A flight record and its waiting queue, head first (01, section 1.1; 02, R23). -/
structure Flight where
  state : FlightState
  members : List AxisId
  claim : Option Station
  cueGate : CueGate
  active : Option Active
  dwell : Option Nat
  armTimer : Option Nat
  queueLow : Bool
  holdCause : Option HoldCause
  tripCause : Option TripCause
  furtherTrips : Bool
  holdDecel : Nat
  loadMin : Int
  loadMax : Int
  queue : List Segment
  deriving DecidableEq, Repr

/-- A flight record at reset (01, R1). -/
def Flight.reset : Flight :=
  { state := .free, members := [], claim := none, cueGate := .closed, active := none, dwell := none, armTimer := none,
    queueLow := false, holdCause := none, tripCause := none, furtherTrips := false, holdDecel := 64, loadMin := -4095,
    loadMax := 4095, queue := [] }

/-! ### Axes (01, section 1.2) -/

/-- Axis states (01, section 1.3). -/
inductive AxisState where
  | unconfigured
  | braked
  | releasing
  | following
  | faulted
  deriving DecidableEq, Repr

/-- The parameters that CONFIGURE-AXIS gives an axis (01, R2, R5). -/
structure AxisParams where
  address : BitVec 7
  lower : Int
  upper : Int
  vmax : Nat
  amax : Nat
  window : Nat
  slot : Option SlotId
  deriving DecidableEq, Repr

/-- What the last completed write exchange carried (07, R127). -/
structure LastWrite where
  setPoint : Int
  release : Bool
  deriving DecidableEq, Repr

/-- An axis record. `params` is none while the axis is UNCONFIGURED: "no value" (01, R2). -/
structure Axis where
  state : AxisState
  params : Option AxisParams
  setPoint : Int
  lastWrite : Option LastWrite
  measured : Option Int
  driveStatus : Option Byte
  missedStreak : Nat
  writeStreak : Nat
  faultCause : Option FaultCause
  flight : Option FlightId
  deriving DecidableEq, Repr

/-- An axis record at reset (01, R2; 07, R124). -/
def Axis.reset : Axis :=
  { state := .unconfigured, params := none, setPoint := 0, lastWrite := none, measured := none, driveStatus := none,
    missedStreak := 0, writeStreak := 0, faultCause := none, flight := none }

/-! ### Axis bus controller (07, section 7.1) -/

/-- Whether a round is running (07, R124). -/
inductive Round where
  | idle
  | running
  deriving DecidableEq, Repr

/-- The two exchanges of an axis in a round (07, R136). -/
inductive ExchangeKind where
  | write
  | read
  deriving DecidableEq, Repr

/-- The axis and kind whose turn it is (07, R132, R136). -/
structure Turn where
  axis : AxisId
  kind : ExchangeKind
  deriving DecidableEq, Repr

/-- The exchange in progress (07, R124), with the bytes the part formed for it. `discarded` marks an exchange whose drive
address was changed under it (01, R6; 07, R125). -/
structure Exchange where
  axis : AxisId
  kind : ExchangeKind
  address : BitVec 7
  bytes : List Byte
  discarded : Bool
  deriving DecidableEq, Repr

/-! ### Tension scanner (08, sections 8.1, 8.2) -/

/-- How a slot's latest result was obtained. -/
inductive Origin where
  | converted
  | injected
  deriving DecidableEq, Repr

/-- A tension slot: its six settings and its result. The fresh flags are kept in each port. -/
structure Slot where
  input : Fin 8
  enabled : Bool
  tare : Nat
  high : Int
  low : Int
  slack : Int
  raw : Nat
  tared : Int
  valid : Bool
  origin : Origin
  isOver : Bool
  isUnder : Bool
  deriving DecidableEq, Repr

/-- A slot at reset (08, R142). -/
def Slot.reset : Slot :=
  { input := 0, enabled := false, tare := 0, high := 0, low := 0, slack := 0, raw := 0, tared := 0, valid := false,
    origin := .converted, isOver := false, isUnder := false }

/-- Scan modes (08, R143). -/
inductive ScanMode where
  | stopped
  | once
  | continuous
  | step
  deriving DecidableEq, Repr

/-- Scanner states; SCANNING names the converting slot (08, R143). -/
inductive ScanState where
  | stopped
  | waiting
  | scanning (slot : SlotId)
  deriving DecidableEq, Repr

/-! ### Sense lines and reflex links (09, sections 9.1, 9.2) -/

/-- A sense line. `filtered` is none while the line is unsettled. -/
structure SenseLine where
  raw : Level
  filtered : Option Level
  filterOn : Bool
  pending : Option Level
  deriving DecidableEq, Repr

/-- A sense line at reset, with the level its pin has (09, R158). -/
def SenseLine.reset (raw : Level) : SenseLine := { raw := raw, filtered := none, filterOn := true, pending := none }

/-- What a link watches. -/
inductive Source where
  | line (n : LineId)
  | slot (k : SlotId)
  deriving DecidableEq, Repr

/-- What on the source makes a link act. -/
inductive Condition where
  | rise
  | fall
  | high
  | low
  | overLimit
  | underLimit
  | slackEdge
  deriving DecidableEq, Repr

/-- What a link does, with its target. -/
inductive Action where
  | holdFlight (f : FlightId)
  | holdAll
  | tripFlight (f : FlightId)
  | tripAll
  | cueFlight (f : FlightId)
  | enableStation (st : Station)
  deriving DecidableEq, Repr

/-- A link in use. -/
structure Link where
  source : Source
  cond : Condition
  action : Action
  deriving DecidableEq, Repr

/-! ### Station ports (10, section 10.1) -/

/-- Receiver stages (10, R174). -/
inductive RxStage where
  | hunting
  | length
  | content
  | check
  deriving DecidableEq, Repr

/-- The bytes of the frame in assembly. -/
structure Assembly where
  length : Option Byte
  content : List Byte
  crc : List Byte
  deriving DecidableEq, Repr

/-- No bytes in assembly. -/
def Assembly.empty : Assembly := { length := none, content := [], crc := [] }

/-- A checked frame in the request buffer. -/
structure Frame where
  kind : Byte
  body : List Byte
  deriving DecidableEq, Repr

/-- The reply transmitter; SENDING holds the whole reply frame as sent on the line. -/
inductive Transmitter where
  | idle
  | sending (reply : List Byte)
  deriving DecidableEq, Repr

/-- A port's error flags (10, R175). -/
structure ErrorFlags where
  framing : Bool
  gap : Bool
  length : Bool
  crc : Bool
  overrun : Bool
  deriving DecidableEq, Repr

/-- No error flag set. -/
def ErrorFlags.clear : ErrorFlags := { framing := false, gap := false, length := false, crc := false, overrun := false }

/-- A port's notice flags of one flight (10, section 10.6). -/
structure FlightNotices where
  state : Bool
  done : Bool
  low : Bool
  lost : Bool
  reject : Bool
  deriving DecidableEq, Repr

/-- No notice set. -/
def FlightNotices.clear : FlightNotices := { state := false, done := false, low := false, lost := false, reject := false }

/-- One station port (10, R172). -/
structure Port where
  stage : RxStage
  assembly : Assembly
  buffer : Option Frame
  tx : Transmitter
  errors : ErrorFlags
  flightNotices : Vector FlightNotices 6
  linesNotice : Bool
  linkNotice : Bool
  change : Vector Bool 16
  fresh : Vector Bool 8
  silence : Nat
  deriving DecidableEq, Repr

/-- A port at reset (10, R172). -/
def Port.reset : Port :=
  { stage := .hunting, assembly := .empty, buffer := none, tx := .idle, errors := .clear,
    flightNotices := Vector.replicate 6 .clear, linesNotice := false, linkNotice := false,
    change := Vector.replicate 16 false, fresh := Vector.replicate 8 false, silence := 0 }

/-- One value for each station. -/
structure PerStation (α : Type) where
  a : α
  b : α
  c : α
  deriving DecidableEq, Repr

/-! ### Outputs (09, section 9.4) -/

/-- The sounder's pattern; PULSED holds its phase and the step expiries counted in that phase (09, R170). -/
inductive Sounder where
  | off
  | steady
  | pulsed (sounding : Bool) (count : Nat)
  deriving DecidableEq, Repr

/-! ### Requests and their replies (10, section 10.4) -/

/-- Result codes (10, R178). -/
inductive ResultCode where
  | done
  | unknownKind
  | badParameter
  | notClaimed
  | claimedElsewhere
  | badState
  | notEnabled
  | conditionPersists
  | queueFull
  | queueEmpty
  | outOfLimits
  | loadOutOfWindow
  | axisUnavailable
  | axisFault
  | addressInUse
  | scannerRunning
  deriving DecidableEq, Repr

/-- What the owner of a request gives back: the result code and, for a read, the data (10, R178). -/
structure Answer where
  code : ResultCode
  data : List Byte
  deriving DecidableEq, Repr

/-! ### The whole part -/

/-- Everything the FC612 holds. `turn` is implied state of the bus controller; `freeIndex` counts the model's free
choices (log entry 6); `pending` is the model's queue of waiting commands (log entry 1). -/
structure State where
  flights : Vector Flight 6
  axes : Vector Axis 12
  links : Vector (Option Link) 24
  slots : Vector Slot 8
  lines : Vector SenseLine 16
  ports : PerStation Port
  enables : PerStation Bool
  silents : PerStation Bool
  scanMode : ScanMode
  scanState : ScanState
  round : Round
  roundPending : Bool
  turn : Option Turn
  exchange : Option Exchange
  stepCounter : BitVec 32
  timerRunning : Bool
  resetAsserted : Bool
  brakes : Vector Bool 12
  sounder : Sounder
  faultLine : Bool
  freeIndex : Nat
  pending : List Instr
  deriving DecidableEq, Repr

/-- The part right after reset, as the last columns of the record tables give it (R1, R2, R43, R106, R113, R117, R124, R142, R143,
R158, R162, R169 to R172). DESIGN CHOICE, unsafe: every sense-line pin reads LOW (log entry 8); the free-choice counter
starts at 0 (log entry 6). -/
def State.reset : State :=
  { flights := Vector.replicate 6 Flight.reset
    axes := Vector.replicate 12 Axis.reset
    links := Vector.replicate 24 none
    slots := Vector.replicate 8 Slot.reset
    lines := Vector.replicate 16 (SenseLine.reset .low)
    ports := { a := Port.reset, b := Port.reset, c := Port.reset }
    enables := { a := false, b := false, c := false }
    silents := { a := false, b := false, c := false }
    scanMode := .stopped
    scanState := .stopped
    round := .idle
    roundPending := false
    turn := none
    exchange := none
    stepCounter := 0
    timerRunning := true
    resetAsserted := false
    brakes := Vector.replicate 12 false
    sounder := .off
    faultLine := false
    freeIndex := 0
    pending := [] }

/-- The block takes every command to a next state, so no fault exists and none is raised by anyone. Safe: there is no
stop. -/
inductive Fault where
  deriving DecidableEq, Repr

/-- Why a command has no meaning. -/
inductive Refusal where
  /-- Raised by an arm of `exec` whose command is not modelled; no arm is such an arm now. Safe: the run stops. -/
  | notModelled (mnemonic : String)
  deriving DecidableEq, Repr

end Sys2Proof.Machine
end

