-- ==== Sys2Proof/Machine/Access.lean ====
section
/-! DEFINITION. Named reads and writes of the records of State: every operation goes through these. -/

namespace Sys2Proof.Machine

/-- The value of a station. -/
def PerStation.get {α : Type} (p : PerStation α) : Station → α
  | .a => p.a
  | .b => p.b
  | .c => p.c

/-- The values with one station's changed. -/
def PerStation.upd {α : Type} (p : PerStation α) (st : Station) (g : α → α) : PerStation α :=
  match st with
  | .a => { p with a := g p.a }
  | .b => { p with b := g p.b }
  | .c => { p with c := g p.c }

/-- Every station's value changed alike. -/
def PerStation.map {α : Type} (p : PerStation α) (g : α → α) : PerStation α := { a := g p.a, b := g p.b, c := g p.c }

/-- A table with one entry changed. -/
def updAt {α : Type} {n : Nat} (v : Vector α n) (i : Fin n) (g : α → α) : Vector α n := v.set i (g v[i])

/-- A table with every entry changed, each by its own index. -/
def mapAt {α : Type} {n : Nat} (v : Vector α n) (g : Fin n → α → α) : Vector α n := Vector.ofFn fun i => g i v[i]

def allStations : List Station := [.a, .b, .c]
def allFlights : List FlightId := [0, 1, 2, 3, 4, 5]
def allAxes : List AxisId := [0, 1, 2, 3, 4, 5, 6, 7, 8, 9, 10, 11]
def allSlots : List SlotId := [0, 1, 2, 3, 4, 5, 6, 7]
def allLines : List LineId := [0, 1, 2, 3, 4, 5, 6, 7, 8, 9, 10, 11, 12, 13, 14, 15]
def allLinks : List LinkId :=
  [0, 1, 2, 3, 4, 5, 6, 7, 8, 9, 10, 11, 12, 13, 14, 15, 16, 17, 18, 19, 20, 21, 22, 23]

/-- The record of a flight. -/
def State.flight (s : State) (f : FlightId) : Flight := s.flights[f]
/-- The record of an axis. -/
def State.axis (s : State) (n : AxisId) : Axis := s.axes[n]
/-- A reflex table entry. -/
def State.link (s : State) (i : LinkId) : Option Link := s.links[i]
/-- A tension slot. -/
def State.slot (s : State) (k : SlotId) : Slot := s.slots[k]
/-- A sense line. -/
def State.line (s : State) (n : LineId) : SenseLine := s.lines[n]
/-- A station's port. -/
def State.port (s : State) (st : Station) : Port := s.ports.get st
/-- The level of BRKn: asserted or not. -/
def State.brake (s : State) (n : AxisId) : Bool := s.brakes[n]

/-- One flight record changed. -/
def State.updFlight (s : State) (f : FlightId) (g : Flight → Flight) : State := { s with flights := updAt s.flights f g }
/-- One axis record changed. -/
def State.updAxis (s : State) (n : AxisId) (g : Axis → Axis) : State := { s with axes := updAt s.axes n g }
/-- Every axis record changed by its own number. -/
def State.mapAxes (s : State) (g : AxisId → Axis → Axis) : State := { s with axes := mapAt s.axes g }
/-- One reflex table entry written. -/
def State.setLink (s : State) (i : LinkId) (l : Option Link) : State := { s with links := updAt s.links i fun _ => l }
/-- One slot changed. -/
def State.updSlot (s : State) (k : SlotId) (g : Slot → Slot) : State := { s with slots := updAt s.slots k g }
/-- One sense line changed. -/
def State.updLine (s : State) (n : LineId) (g : SenseLine → SenseLine) : State := { s with lines := updAt s.lines n g }
/-- One port changed. -/
def State.updPort (s : State) (st : Station) (g : Port → Port) : State := { s with ports := s.ports.upd st g }
/-- All three ports changed alike. -/
def State.mapPorts (s : State) (g : Port → Port) : State := { s with ports := s.ports.map g }
/-- A station's stored enable written. -/
def State.setEnable (s : State) (st : Station) (b : Bool) : State := { s with enables := s.enables.upd st fun _ => b }
/-- A station made SILENT or ACTIVE. -/
def State.setSilent (s : State) (st : Station) (b : Bool) : State := { s with silents := s.silents.upd st fun _ => b }

end Sys2Proof.Machine
end

