-- ==== Sys2Proof/Machine/Flags.lean ====
section
/-! DEFINITION. The flags kept per port: notice flags, error flags, change flags and fresh flags (10, sections 10.1, 10.6). A flag
raised by the flight table, the segment queues, the sense lines or the scanner is set in all three copies; LINK and the error
flags are set in one (R181, R175). -/

namespace Sys2Proof.Machine

/-- A flight's notices changed in every port's copy (R181). -/
def raiseFlight (f : FlightId) (g : FlightNotices → FlightNotices) (s : State) : State :=
  s.mapPorts fun p => { p with flightNotices := updAt p.flightNotices f g }

/-- STATE (01, R10). -/
def raiseState (f : FlightId) (s : State) : State := raiseFlight f (fun x => { x with state := true }) s
/-- DONE (02, R35). -/
def raiseDone (f : FlightId) (s : State) : State := raiseFlight f (fun x => { x with done := true }) s
/-- LOW (02, R27). -/
def raiseLow (f : FlightId) (s : State) : State := raiseFlight f (fun x => { x with low := true }) s
/-- LOST (02, R37). -/
def raiseLost (f : FlightId) (s : State) : State := raiseFlight f (fun x => { x with lost := true }) s
/-- REJECT (02, R33). -/
def raiseReject (f : FlightId) (s : State) : State := raiseFlight f (fun x => { x with reject := true }) s

/-- The change flag of a line and LINES, on every port (09, R161). -/
def raiseLineChange (n : LineId) (s : State) : State :=
  s.mapPorts fun p => { p with change := updAt p.change n fun _ => true, linesNotice := true }

/-- The fresh flag of a slot, on every port (08, R152). -/
def raiseFresh (k : SlotId) (s : State) : State :=
  s.mapPorts fun p => { p with fresh := updAt p.fresh k fun _ => true }

/-- A frame discarded on one port: its bytes dropped, its error flag and LINK set, the receiver hunting again (10, R175). -/
def discardFrame (st : Station) (g : ErrorFlags → ErrorFlags) (s : State) : State :=
  s.updPort st fun p => { p with stage := .hunting, assembly := .empty, errors := g p.errors, linkNotice := true }

/-- STATUS clears this port's notice and error flags (10, R181). -/
def clearNotices (st : Station) (s : State) : State :=
  s.updPort st fun p => { p with flightNotices := Vector.replicate 6 .clear, linesNotice := false, linkNotice := false,
                                 errors := .clear }

/-- READ-SLOTS clears this port's fresh flags (08, R152). -/
def clearFresh (st : Station) (s : State) : State := s.updPort st fun p => { p with fresh := Vector.replicate 8 false }

/-- READ-LINES clears this port's change flags (09, R161). -/
def clearChange (st : Station) (s : State) : State := s.updPort st fun p => { p with change := Vector.replicate 16 false }

end Sys2Proof.Machine
end

