-- ==== Sys2Proof/Machine/Operands.lean ====
section
/-! DEFINITION. The fields of requests and replies: the ranges of the record tables, the codes of 10, R180, and the numbers as
the bytes of a BODY (10, section 10.2). -/

namespace Sys2Proof.Machine

/-! ### Ranges and counts of the record tables -/

/-- Largest soft limit, µm (01, section 1.2). -/
def maxPosition : Int := 60000000
/-- Largest axis vmax and segment vmax, fine counts per step (01, section 1.2; 02, section 2.1). -/
def maxSpeed : Nat := 192000
/-- Largest acceleration, fine counts per step per step. -/
def maxAccel : Nat := 1024
/-- Largest following window, µm. -/
def maxWindow : Nat := 1000000
/-- Largest raw tension; tared tensions run from its negative to it (08, section 8.1). -/
def maxTension : Nat := 4095
/-- Records a waiting queue holds (02, R23). -/
def queueCapacity : Nat := 8
/-- Steps of the arming timer (01, R13). -/
def armingSteps : Nat := 100
/-- Steps of silence that make a station SILENT (06, R117). -/
def silenceSteps : Nat := 250
/-- Step expiries of one PULSED phase (09, R170). -/
def phaseSteps : Nat := 125
/-- The streak that faults an axis (07, R133, R134). -/
def streakLimit : Nat := 3

/-! ### Numbers and codes in a request (10, R177 check 3, R180) -/

/-- A flight number, 0–5. -/
def flightOf (b : Byte) : Option FlightId := if h : b.toNat < 6 then some ⟨b.toNat, h⟩ else none

/-- An axis number, 0–11. -/
def axisOf (b : Byte) : Option AxisId := if h : b.toNat < 12 then some ⟨b.toNat, h⟩ else none

/-- A link number, 0–23. -/
def linkOf (b : Byte) : Option LinkId := if h : b.toNat < 24 then some ⟨b.toNat, h⟩ else none

/-- A slot number, 0–7. -/
def slotOf (b : Byte) : Option SlotId := if h : b.toNat < 8 then some ⟨b.toNat, h⟩ else none

/-- A load-cell input, LC0–LC7. -/
def inputOf (b : Byte) : Option (Fin 8) := if h : b.toNat < 8 then some ⟨b.toNat, h⟩ else none

/-- A tension slot 0–7, or 0xFF for its absence (R179). -/
def slotFieldOf (b : Byte) : Option (Option SlotId) := if b = 0xFF then some none else (slotOf b).map some

/-- A field that is 0 or 1. -/
def flagOf (b : Byte) : Option Bool :=
  match b.toNat with
  | 0 => some false
  | 1 => some true
  | _ => none

/-- A station code. -/
def stationOf (b : Byte) : Option Station :=
  match b.toNat with
  | 0 => some .a
  | 1 => some .b
  | 2 => some .c
  | _ => none

/-- A start kind code. -/
def startKindOf (b : Byte) : Option StartKind :=
  match b.toNat with
  | 0 => some .go
  | 1 => some .cue
  | 2 => some .follow
  | _ => none

/-- A scan mode code. -/
def scanModeOf (b : Byte) : Option ScanMode :=
  match b.toNat with
  | 0 => some .stopped
  | 1 => some .once
  | 2 => some .continuous
  | 3 => some .step
  | _ => none

/-- A source code: SNS0–SNS15 0x00–0x0F, slot 0–7 0x10–0x17. -/
def sourceOf (b : Byte) : Option Source :=
  if h : b.toNat < 16 then some (.line ⟨b.toNat, h⟩)
  else if h : b.toNat - 16 < 8 then some (.slot ⟨b.toNat - 16, h⟩)
  else none

/-- A condition code. -/
def conditionOf (b : Byte) : Option Condition :=
  match b.toNat with
  | 0 => some .rise
  | 1 => some .fall
  | 2 => some .high
  | 3 => some .low
  | 4 => some .overLimit
  | 5 => some .underLimit
  | 6 => some .slackEdge
  | _ => none

/-- An action code with its target field: a flight, a station, or 0xFF for none (R163, R180). -/
def actionOf (action target : Byte) : Option Action :=
  match action.toNat with
  | 0 => (flightOf target).map .holdFlight
  | 1 => if target = 0xFF then some .holdAll else none
  | 2 => (flightOf target).map .tripFlight
  | 3 => if target = 0xFF then some .tripAll else none
  | 4 => (flightOf target).map .cueFlight
  | 5 => (stationOf target).map .enableStation
  | _ => none

/-- HIGH, LOW, OVER and UNDER hold for as long as the source's level says so (09, section 9.2). -/
def Condition.isLevel : Condition → Bool
  | .high | .low | .overLimit | .underLimit => true
  | .rise | .fall | .slackEdge => false

/-- The conditions of a sense line, and those of a slot (09, section 9.2). -/
def Condition.fits : Condition → Source → Bool
  | .rise, .line _ | .fall, .line _ | .high, .line _ | .low, .line _ => true
  | .overLimit, .slot _ | .underLimit, .slot _ | .slackEdge, .slot _ => true
  | .rise, .slot _ | .fall, .slot _ | .high, .slot _ | .low, .slot _ => false
  | .overLimit, .line _ | .underLimit, .line _ | .slackEdge, .line _ => false

/-- CUE_FLIGHT takes an edge condition only, ENABLE_STATION a level condition only (09, section 9.2). -/
def Action.allows : Action → Condition → Bool
  | .cueFlight _, c => !c.isLevel
  | .enableStation _, c => c.isLevel
  | .holdFlight _, _ | .holdAll, _ | .tripFlight _, _ | .tripAll, _ => true

/-- The link that a SET-LINK's codes spell, where R163 takes them. -/
def linkFieldsOf (source condition action target : Byte) : Option Link :=
  match sourceOf source, conditionOf condition, actionOf action target with
  | some src, some cond, some act =>
    if cond.fits src && act.allows cond then some { source := src, cond := cond, action := act } else none
  | _, _, _ => none

/-- Whether a number lies in a range, both ends inclusive. -/
def inRange (lo hi x : Int) : Bool := decide (lo ≤ x) && decide (x ≤ hi)

/-- A tension value, −4095 to +4095. -/
def tensionOf (h : Half) : Option Int := if inRange (-maxTension) maxTension h.toInt then some h.toInt else none

/-- The parameters of a CONFIGURE-AXIS, where each is in its range in the axis record table (01, R5 check 1). -/
def paramsOf (address : Byte) (lower upper vmax : Word) (amax : Half) (window : Word) (slot : Byte) : Option AxisParams :=
  match slotFieldOf slot with
  | none => none
  | some k =>
    if inRange 0x08 0x77 address.toNat && decide (0 ≤ lower.toInt) && decide (lower.toInt < upper.toInt) &&
        decide (upper.toInt ≤ maxPosition) && inRange 1 maxSpeed vmax.toNat && inRange 1 maxAccel amax.toNat &&
        inRange 1 maxWindow window.toNat then
      some { address := address.setWidth 7, lower := lower.toInt, upper := upper.toInt, vmax := vmax.toNat,
             amax := amax.toNat, window := window.toNat, slot := k }
    else none

/-- The targets of an APPEND: the target of a slot whose presence bit is clear is not looked at (10, section 10.5). -/
def targetsOf (presence : Byte) (t0 t1 t2 t3 : Word) : Vector (Option Int) 4 :=
  #v[if presence.getLsbD 0 then some t0.toInt else none, if presence.getLsbD 1 then some t1.toInt else none,
     if presence.getLsbD 2 then some t2.toInt else none, if presence.getLsbD 3 then some t3.toInt else none]

/-- The segment record of an APPEND, where the port takes its fields (02, R24 check 1; 10, R177 check 3). -/
def segmentOf (tag : Half) (presence : Byte) (t0 t1 t2 t3 vmax : Word) (aUp aDn dwell : Half) (start flags : Byte) :
    Option Segment :=
  match startKindOf start with
  | none => none
  | some k =>
    if decide (presence.toNat < 16) && decide (flags.toNat < 4) && inRange 1 maxSpeed vmax.toNat &&
        inRange 1 maxAccel aUp.toNat && inRange 1 maxAccel aDn.toNat then
      some { tag := tag, targets := targetsOf presence t0 t1 t2 t3, vmax := vmax.toNat, aUp := aUp.toNat,
             aDn := aDn.toNat, dwell := dwell.toNat, start := k, recycle := flags.getLsbD 0, loadCheck := flags.getLsbD 1 }
    else none

/-- The target of a member slot, where it is present (02, R22). -/
def Segment.target (seg : Segment) (i : Nat) : Option Int := if h : i < 4 then seg.targets[i] else none

/-- The settings of a SET-SLOT, where the port takes them; the result part is the caller's (08, R154 check 1). -/
def slotSettingsOf (input enabled : Byte) (tare high low slack : Half) (old : Slot) : Option Slot :=
  match inputOf input, flagOf enabled, tensionOf high, tensionOf low, tensionOf slack with
  | some lc, some en, some hi, some lo, some sl =>
    if tare.toNat ≤ maxTension ∧ lo ≤ hi then
      some { old with input := lc, enabled := en, tare := tare.toNat, high := hi, low := lo, slack := sl }
    else none
  | _, _, _, _, _ => none

/-! ### Codes in a reply (10, R178, R180) -/

def ResultCode.byte : ResultCode → Byte
  | .done => 0x00
  | .unknownKind => 0x01
  | .badParameter => 0x02
  | .notClaimed => 0x03
  | .claimedElsewhere => 0x04
  | .badState => 0x05
  | .notEnabled => 0x06
  | .conditionPersists => 0x07
  | .queueFull => 0x08
  | .queueEmpty => 0x09
  | .outOfLimits => 0x0A
  | .loadOutOfWindow => 0x0B
  | .axisUnavailable => 0x0C
  | .axisFault => 0x0D
  | .addressInUse => 0x0E
  | .scannerRunning => 0x0F

def stationByte : Station → Byte
  | .a => 0x00
  | .b => 0x01
  | .c => 0x02

/-- A claim: a station code, or none 0xFF. -/
def claimByte : Option Station → Byte
  | some st => stationByte st
  | none => 0xFF

def FlightState.byte : FlightState → Byte
  | .free => 0
  | .parked => 1
  | .arming => 2
  | .ready => 3
  | .moving => 4
  | .dwell => 5
  | .stopping => 6
  | .held => 7
  | .tripped => 8

def AxisState.byte : AxisState → Byte
  | .unconfigured => 0
  | .braked => 1
  | .releasing => 2
  | .following => 3
  | .faulted => 4

def FaultCause.byte : FaultCause → Byte
  | .followingError => 3
  | .overtravel => 4
  | .driveFault => 5
  | .driveSilent => 6
  | .brakeMismatch => 7

def CueGate.byte : CueGate → Byte
  | .closed => 0
  | .opened => 1

def StartKind.byte : StartKind → Byte
  | .go => 0
  | .cue => 1
  | .follow => 2

def ScanMode.byte : ScanMode → Byte
  | .stopped => 0
  | .once => 1
  | .continuous => 2
  | .step => 3

def ScanState.byte : ScanState → Byte
  | .stopped => 0
  | .waiting => 1
  | .scanning _ => 2

/-- A number that is known to fit a byte. -/
def natByte (n : Nat) : Byte := BitVec.ofNat 8 n

/-- Hold cause and qualifier. DEDUCED: an absent cause has both sent as 0 (R183; log entry 12). -/
def holdCauseBytes : Option HoldCause → List Byte
  | none => [0, 0]
  | some (.stationHold st) => [1, 0x80 + stationByte st]
  | some (.holdAllStation st) => [2, 0x80 + stationByte st]
  | some (.holdAllLink l) => [2, natByte l]
  | some (.linkHold l) => [3, natByte l]
  | some .enableLost => [4, 0xFF]
  | some .stationSilent => [5, 0xFF]

/-- Trip cause and qualifier. DEDUCED: an absent cause has both sent as 0 (R183; log entry 12). -/
def tripCauseBytes : Option TripCause → List Byte
  | none => [0, 0]
  | some (.linkTrip l) => [1, natByte l]
  | some (.stationStop st) => [2, 0x80 + stationByte st]
  | some (.axisFault c n) => [c.byte, natByte n]
  | some (.brakeTimeout n) => [8, natByte n]

def Source.byte : Source → Byte
  | .line n => natByte n
  | .slot k => natByte (16 + k)

def Condition.byte : Condition → Byte
  | .rise => 0
  | .fall => 1
  | .high => 2
  | .low => 3
  | .overLimit => 4
  | .underLimit => 5
  | .slackEdge => 6

/-- Action and link target. -/
def Action.codes : Action → List Byte
  | .holdFlight f => [0, natByte f]
  | .holdAll => [1, 0xFF]
  | .tripFlight f => [2, natByte f]
  | .tripAll => [3, 0xFF]
  | .cueFlight f => [4, natByte f]
  | .enableStation st => [5, stationByte st]

/-! ### Numbers as bytes -/

/-- The number whose bit i is the i-th flag. -/
def packBits (flags : List Bool) : Nat := flags.foldr (fun b n => b.toNat + 2 * n) 0

/-- Up to eight flags in one byte, the first in bit 0. DESIGN CHOICE: a bit to which 10, section 10.6 gives no meaning is sent as
0; R182 to R185 are silent on it (log entry 28). -/
def flagsByte (flags : List Bool) : Byte := BitVec.ofNat 8 (packBits flags)

/-- Up to sixteen flags in two bytes. -/
def flagsHalf (flags : List Bool) : List Byte := halfBytes (BitVec.ofNat 16 (packBits flags))

def natHalf (n : Nat) : List Byte := halfBytes (BitVec.ofNat 16 n)
def intHalf (x : Int) : List Byte := halfBytes (BitVec.ofInt 16 x)
def natWord (n : Nat) : List Byte := wordBytes (BitVec.ofNat 32 n)
def intWord (x : Int) : List Byte := wordBytes (BitVec.ofInt 32 x)

end Sys2Proof.Machine
end

