-- ==== Sys2Proof/Machine/Ops.lean ====
section
/-! DEFINITION. The shared operations of the flight table, the axis table and the output lines: a change of state with its
notice and its lines, the trip, the hold, the arming abort and the axis fault. -/

namespace Sys2Proof.Machine

/-- The three outcomes of a command; only `next` is ever answered. -/
abbrev Out := Host.Outcome State Fault Refusal

/-! ### Output lines (09, section 9.4) -/

/-- The axis states in which BRKn is asserted (09, R169). -/
def Axis.released (a : Axis) : Bool := decide (a.state = .releasing) || decide (a.state = .following)

/-- The flight states that sound STEADY (09, R170). -/
def FlightState.soundsSteady : FlightState → Bool
  | .arming | .moving | .stopping | .dwell => true
  | .free | .parked | .ready | .held | .tripped => false

def State.anyTripped (s : State) : Bool := allFlights.any fun f => decide ((s.flight f).state = .tripped)
def State.anySteady (s : State) : Bool := allFlights.any fun f => (s.flight f).state.soundsSteady
def State.anyFaulted (s : State) : Bool := allAxes.any fun n => decide ((s.axis n).state = .faulted)

/-- The sounder's pattern from the flight states; entering PULSED begins a sounding phase, staying in it keeps the phase
(09, R170). -/
def nextSounder (tripped steady : Bool) (now : Sounder) : Sounder :=
  if tripped then
    match now with
    | .pulsed sounding count => .pulsed sounding count
    | .off | .steady => .pulsed true 0
  else if steady then .steady
  else .off

/-- The output lines follow the axis and flight states at the event that changes them (09, R169, R170, R171). -/
def driveOutputs (s : State) : State :=
  { s with
    brakes := Vector.ofFn fun n => (s.axis n).released
    sounder := nextSounder s.anyTripped s.anySteady s.sounder
    faultLine := s.anyTripped || s.anyFaulted }

/-- A change of flight state: STATE raised on every port, the outputs following (01, R10). -/
def putFlightState (f : FlightId) (st : FlightState) (s : State) : State :=
  driveOutputs (raiseState f (s.updFlight f fun r => { r with state := st }))

/-- A change of one axis record that changes its state, the outputs following. -/
def putAxis (n : AxisId) (g : Axis → Axis) (s : State) : State := driveOutputs (s.updAxis n g)

/-- The brakes of a flight's members applied: each RELEASING or FOLLOWING member goes BRAKED (01, R11). The outputs follow with
the change of flight state that always goes with it. -/
def brakeMembers (f : FlightId) (s : State) : State :=
  s.mapAxes fun n a => if n ∈ (s.flight f).members ∧ a.released = true then { a with state := .braked } else a

/-! ### Trips, holds and aborts (05, R85, R95; 01, R16) -/

/-- A trip request with its cause (05, R95, R97). -/
def tripFlight (f : FlightId) (cause : TripCause) (s : State) : State :=
  match (s.flight f).state with
  | .free => s
  | .tripped => s.updFlight f fun r => { r with furtherTrips := true }
  | .parked | .arming | .ready | .moving | .dwell | .stopping | .held =>
    putFlightState f .tripped
      ((brakeMembers f s).updFlight f fun r => { r with dwell := none, armTimer := none, tripCause := some cause })

/-- The deceleration of a stop: the larger of a_dn_eff and a_hold_eff (03, R57). -/
def Active.stopRate (a : Active) : Nat := max a.aDnEff a.aHoldEff

/-- A hold request with its cause (05, R85, R86). -/
def holdFlight (f : FlightId) (cause : HoldCause) (s : State) : State :=
  match (s.flight f).state with
  | .free | .parked | .arming | .ready | .tripped => s
  | .moving =>
    putFlightState f .stopping (s.updFlight f fun r =>
      { r with holdCause := some cause, active := r.active.map fun a => { a with aStop := some a.stopRate } })
  | .dwell => putFlightState f .held (s.updFlight f fun r => { r with holdCause := some cause })
  | .stopping | .held => s.updFlight f fun r => { r with holdCause := some cause }

/-- An arming abort with its cause (01, R16). -/
def abortArming (f : FlightId) (cause : HoldCause) (s : State) : State :=
  match (s.flight f).state with
  | .arming =>
    putFlightState f .parked
      ((brakeMembers f s).updFlight f fun r => { r with armTimer := none, holdCause := some cause })
  | .free | .parked | .ready | .moving | .dwell | .stopping | .held | .tripped => s

/-- What the authority unit sends a claimed flight at an enable loss or a silence: an abort where it is ARMING, a hold
elsewhere (06, R115, R118). -/
def restrainFlight (f : FlightId) (cause : HoldCause) (s : State) : State :=
  match (s.flight f).state with
  | .arming => abortArming f cause s
  | .free | .parked | .ready | .moving | .dwell | .stopping | .held | .tripped => holdFlight f cause s

/-- The event of an enable loss or a silence to every flight the station claims at that moment (06, R115, R118). -/
def restrainClaimed (st : Station) (cause : HoldCause) (s : State) : State :=
  allFlights.foldl (fun t f => if (t.flight f).claim = some st then restrainFlight f cause t else t) s

/-- A hold request to each of FL0 to FL5 (05, R84). -/
def holdEvery (cause : HoldCause) (s : State) : State := allFlights.foldl (fun t f => holdFlight f cause t) s

/-- A trip request to each of FL0 to FL5 (05, R93). -/
def tripEvery (cause : TripCause) (s : State) : State := allFlights.foldl (fun t f => tripFlight f cause t) s

/-- An axis fault (01, R3; 04, R76): the axis goes FAULTED with its cause and its flight is sent a trip request. On an axis
already FAULTED it changes nothing; none is raised on an UNCONFIGURED axis. The trip request
is taken within the event of the fault (04, R69, R76). -/
def faultAxis (n : AxisId) (cause : FaultCause) (s : State) : State :=
  match (s.axis n).state with
  | .unconfigured | .faulted => s
  | .braked | .releasing | .following =>
    let s1 := putAxis n (fun a => { a with state := .faulted, faultCause := some cause }) s
    match (s.axis n).flight with
    | none => s1
    | some f => tripFlight f (.axisFault cause n) s1

/-! ### Effects taken in either order (09, R168) -/

/-- The elements of a list in a free order: at each place the free choice numbered `ix` picks among those that remain. The
first argument bounds the recursion. -/
def anyOrder {α : Type} : Nat → List α → Nat → List α
  | 0, l, _ => l
  | fuel + 1, l, ix =>
    if l.length ≤ 1 then l
    else
      match l[Config.freePick ix % l.length]? with
      | none => l
      | some a => a :: anyOrder fuel (l.eraseIdx (Config.freePick ix % l.length)) (ix + 1)

/-- Effects of one event, taken one after the other in a free order; with fewer than two there is no choice to make. -/
def takeInAnyOrder {α : Type} (l : List α) (act : α → State → State) (s : State) : State :=
  (anyOrder l.length l s.freeIndex).foldl (fun t a => act a t) { s with freeIndex := s.freeIndex + (l.length - 1) }

/-! ### Replies of owners (10, R177) -/

/-- A request refused: nothing changed, the result code answered. -/
def refuse (s : State) (code : ResultCode) : State × Answer := (s, { code := code, data := [] })

/-- A request taken: the changed state, DONE answered. -/
def accept (s : State) : State × Answer := (s, { code := .done, data := [] })

end Sys2Proof.Machine
end

