-- ==== Sys2Proof/Machine/Bus.lean ====
section
/-! DEFINITION. The axis bus (07): the exchange round, the bytes of exchanges, completed writes and missed exchanges, and the
commands EXCHANGE_START, HELD_LINE, WRITE_COMPLETE, ANSWER_HOLD_TIMEOUT and MISSED_EXCHANGE. -/

namespace Sys2Proof.Machine

/-! ### The round (07, R136, R138) -/

/-- The lowest-numbered configured axis from a number on (07, R136). -/
def configuredFrom (s : State) (k : Nat) : Option AxisId :=
  allAxes.find? fun n => decide (k ≤ n.val) && decide ((s.axis n).state ≠ .unconfigured)

/-- A round begins; with no axis configured it ends at that moment (07, R136). -/
def beginRound (s : State) : State :=
  match configuredFrom s 0 with
  | some n => { s with round := .running, turn := some { axis := n, kind := .write } }
  | none => { s with round := .idle, turn := none }

/-- A round ends: a pending round begins at once (07, R138). -/
def endRound (s : State) : State :=
  if s.roundPending then beginRound { s with roundPending := false } else { s with round := .idle, turn := none }

/-- A step expiry reaching the bus controller (07, R136, R138). -/
def roundStep (s : State) : State :=
  match s.round with
  | .idle => beginRound s
  | .running => { s with roundPending := true }

/-- The turn passes on after an exchange: from a write to the read of the same axis, from a read to the write of the next
configured axis, or the round ends (07, R136). -/
def passTurn (x : Turn) (s : State) : State :=
  match x.kind with
  | .write => { s with exchange := none, turn := some { axis := x.axis, kind := .read } }
  | .read =>
    match configuredFrom s (x.axis.val + 1) with
    | some m => { s with exchange := none, turn := some { axis := m, kind := .write } }
    | none => endRound { s with exchange := none }

/-- The turn of an exchange. -/
def Exchange.turn (x : Exchange) : Turn := { axis := x.axis, kind := x.kind }

/-! ### The bytes of exchanges (07, section 7.2, R126, R128) -/

/-- The check byte: the inverse of the sum, modulo 256, of the bytes before it (07, R126). -/
def checkByte (bytes : List Byte) : Byte := ~~~ (bytes.foldl (· + ·) 0)

/-- The address byte of an exchange. -/
def addressByte (address : BitVec 7) (kind : ExchangeKind) : Byte :=
  match kind with
  | .write => address ++ 0#1
  | .read => address ++ 1#1

/-- The control byte: brake release in bit 7, fault acknowledge in bit 6. -/
def controlByte (release ack : Bool) : Byte := (if release then 0x80 else 0) ||| (if ack then 0x40 else 0)

/-- The set-point bytes and the control byte of a write. -/
def writePayload (setPoint : Int) (release ack : Bool) : List Byte := intWord setPoint ++ [controlByte release ack]

/-- The exchange that begins, its bytes formed from the state at that moment (07, R128). -/
def formExchange (x : Turn) (p : AxisParams) (s : State) : Exchange :=
  let payload := writePayload (s.axis x.axis).setPoint (s.brake x.axis) (decide ((s.axis x.axis).state = .faulted))
  { axis := x.axis
    kind := x.kind
    address := p.address
    bytes :=
      match x.kind with
      | .write => addressByte p.address .write :: payload ++ [checkByte payload]
      | .read => [addressByte p.address .read]
    discarded := false }

/-- The set-point and brake-release bit that a write carried (07, R127). -/
def carried (x : Exchange) : LastWrite :=
  { setPoint := (wordAt x.bytes 1).toInt, release := (byteAt x.bytes 5).getLsbD 7 }

/-! ### Missed exchanges (07, R131 to R135) -/

/-- The missed streak after a miss, by the axis state at the miss (07, R133). -/
def missedAfter (a : Axis) : Nat :=
  match a.state with
  | .unconfigured => a.missedStreak
  | .braked | .releasing | .following => min (a.missedStreak + 1) streakLimit
  | .faulted =>
    if a.faultCause = some .driveSilent then min (a.missedStreak + 1) streakLimit
    else if a.missedStreak < streakLimit - 1 then a.missedStreak + 1
    else a.missedStreak

/-- The write streak after a miss of either kind (07, R134). -/
def writesAfter (a : Axis) (kind : ExchangeKind) : Nat :=
  match kind with
  | .write => min (a.writeStreak + 1) streakLimit
  | .read => a.writeStreak

/-- A miss counted against an axis; a streak of 3 faults an axis that is not FAULTED with DRIVE_SILENT (07, R133 to R135). -/
def countMiss (n : AxisId) (kind : ExchangeKind) (s : State) : State :=
  let a := s.axis n
  let s1 := s.updAxis n fun a => { a with missedStreak := missedAfter a, writeStreak := writesAfter a kind }
  if missedAfter a = streakLimit ∨ (kind = .write ∧ writesAfter a kind = streakLimit) then faultAxis n .driveSilent s1
  else s1

/-- The exchange in progress is missed: counted, unless it is to be discarded, and the turn passes on (07, R125, R131). -/
def missExchange (x : Exchange) (s : State) : State :=
  passTurn x.turn (if x.discarded then s else countMiss x.axis x.kind s)

/-- A write whose seven bytes are all acknowledged (07, R127). -/
def writeEnds (x : Exchange) (s : State) : State :=
  passTurn x.turn
    (if x.discarded then s else s.updAxis x.axis fun a => { a with lastWrite := some (carried x), writeStreak := 0 })

/-! ### The commands. Where the exchange an event speaks of is not in progress, the event cannot occur and nothing changes (log
entry 4); while RESETN is asserted no exchange is in progress (07, R124). -/

/-- EXCHANGE_START: the due exchange begins (07, R128). -/
def execExchangeStart (s : State) : Out :=
  .next <|
    match s.exchange, s.turn with
    | none, some x =>
      match (s.axis x.axis).params with
      | some p => if s.resetAsserted then s else { s with exchange := some (formExchange x p s) }
      | none => s
    | _, _ => s

/-- HELD_LINE: the due exchange is counted as missed without a byte sent (07, R132). -/
def execHeldLine (s : State) : Out :=
  .next <|
    match s.exchange, s.turn with
    | none, some x => if s.resetAsserted then s else passTurn x (countMiss x.axis x.kind s)
    | _, _ => s

/-- WRITE_COMPLETE (07, R127). -/
def execWriteComplete (s : State) : Out :=
  .next <|
    match s.exchange with
    | some x => if s.resetAsserted = false ∧ x.kind = .write then writeEnds x s else s
    | none => s

/-- ANSWER_HOLD_TIMEOUT: the read is a missed exchange (07, R129, R131). -/
def execAnswerHoldTimeout (s : State) : Out :=
  .next <|
    match s.exchange with
    | some x => if s.resetAsserted = false ∧ x.kind = .read then missExchange x s else s
    | none => s

/-- MISSED_EXCHANGE: a byte not acknowledged, or a check that fails (07, R131). -/
def execMissedExchange (s : State) : Out :=
  .next <|
    match s.exchange with
    | some x => if s.resetAsserted then s else missExchange x s
    | none => s

end Sys2Proof.Machine
end

