-- ==== Sys2Proof/Machine/Replies.lean ====
section
/-! DEFINITION. Frames and replies: the CRC, the layout of a reply frame, and a request's reply starting on the transmitter (10,
sections 10.2, 10.4). -/

namespace Sys2Proof.Machine

/-- One bit taken into the CRC register (10, R173). -/
def crcBit (reg : BitVec 16) (bit : Bool) : BitVec 16 :=
  if bit = reg.getLsbD 15 then reg <<< 1 else (reg <<< 1) ^^^ 0x1021#16

/-- One byte taken into the CRC register, most significant bit first (10, R173). -/
def crcByte (reg : BitVec 16) (b : Byte) : BitVec 16 :=
  [7, 6, 5, 4, 3, 2, 1, 0].foldl (fun r i => crcBit r (b.getLsbD i)) reg

/-- The CRC over bytes in the order sent, from 0xFFFF (10, R173). -/
def crc16 (bytes : List Byte) : BitVec 16 := bytes.foldl crcByte 0xFFFF#16

/-- A frame as sent on the line: SYNC, LENGTH, KIND, BODY, CRC (10, section 10.2). -/
def frameBytes (kind : Byte) (body : List Byte) : List Byte :=
  let content := natByte (body.length + 1) :: kind :: body
  0xA5 :: content ++ halfBytes (crc16 content)

/-- A reply frame: the request's KIND plus 0x80, the result code, the data (10, R178). -/
def replyFrame (kind : Byte) (ans : Answer) : List Byte := frameBytes (kind + 0x80) (ans.code.byte :: ans.data)

/-- The reply starts on the port's transmitter (10, R176). -/
def startReply (st : Station) (kind : Byte) (ans : Answer) (s : State) : State :=
  s.updPort st fun p => { p with tx := .sending (replyFrame kind ans) }

/-- A request taken: its owner acts, its reply is formed from the result and starts (10, R176, R187). -/
def takeRequest (st : Station) (kind : Byte) (serve : State → State × Answer) (s : State) : State :=
  startReply st kind (serve s).2 (serve s).1

/-- A valid frame received: the silence counter 0 and the station ACTIVE, before its request is taken (06, R117, R119; 10,
R174). -/
def markHeard (st : Station) (s : State) : State := (s.updPort st fun p => { p with silence := 0 }).setSilent st false

/-- A request row: the station's valid frame received, by which it is heard, and its request taken at once (06, R111, R119; 10,
R176, R182; log entries 2, 3). While RESETN is asserted the port ignores its receive pair (10, R172). -/
def onRequest (st : Station) (kind : Byte) (serve : State → State × Answer) (s : State) : Out :=
  .next (if s.resetAsserted then s else takeRequest st kind serve (markHeard st s))

end Sys2Proof.Machine
end

