-- ==== Sys2Proof/Machine/Claims.lean ====
section
/-! DEFINITION. The claim on a flight (06, sections 6.1 to 6.3): the commands CLAIM and RELEASE. -/

namespace Sys2Proof.Machine

/-- The states of a claimed flight in which another station's TAKE is allowed (06, R107). -/
def FlightState.allowsTake : FlightState → Bool
  | .parked | .ready | .held | .tripped => true
  | .free | .arming | .moving | .dwell | .stopping => false

/-- The states of a flight in which its claimer may release it (06, R109). -/
def FlightState.allowsRelease : FlightState → Bool
  | .free | .parked | .tripped => true
  | .arming | .ready | .moving | .dwell | .stopping | .held => false

/-- The claim of a flight set. -/
def setClaim (f : FlightId) (claim : Option Station) (s : State) : State := s.updFlight f fun r => { r with claim := claim }

/-- CLAIM, decided in the order of its table (06, R107). -/
def serveClaim (st : Station) (flight take : Byte) (s : State) : State × Answer :=
  match flightOf flight, flagOf take with
  | some f, some takes =>
    match (s.flight f).claim with
    | none => accept (setClaim f (some st) s)
    | some holder =>
      if holder = st then accept s
      else if takes = false then refuse s .claimedElsewhere
      else if (s.flight f).state.allowsTake then accept (setClaim f (some st) s)
      else refuse s .badState
  | _, _ => refuse s .badParameter

/-- RELEASE (06, R109). -/
def serveRelease (st : Station) (flight : Byte) (s : State) : State × Answer :=
  match flightOf flight with
  | none => refuse s .badParameter
  | some f =>
    if (s.flight f).claim ≠ some st then refuse s .notClaimed
    else if (s.flight f).state.allowsRelease then accept (setClaim f none s)
    else refuse s .badState

/-- CLAIM. -/
def execClaim (st : Station) (flight take : Byte) (s : State) : Out :=
  onRequest st kindClaim (serveClaim st flight take) s

/-- RELEASE. -/
def execRelease (st : Station) (flight : Byte) (s : State) : Out := onRequest st kindRelease (serveRelease st flight) s

end Sys2Proof.Machine
end

