-- ==== Sys2Proof/Machine/Path.lean ====
section
/-! DEFINITION. The path of a flight: the start procedure (02, section 2.6), the path arithmetic and its step rules (03),
interpolation (04, R64), completion and the follow decision (02, section 2.7). -/

namespace Sys2Proof.Machine

/-! ### Path length and effective limits (03, sections 3.4, 3.5) -/

/-- The displacement of each member slot, from its start position: target minus start, or 0 where the target is absent (03,
R46). -/
def displacements (seg : Segment) (starts : List Int) : List Int :=
  starts.zipIdx.map fun (p, i) =>
    match seg.target i with
    | some t => t - p
    | none => 0

/-- L: sixteen times the largest displacement (03, R46). -/
def pathLength (ds : List Int) : Nat := 16 * (ds.map Int.natAbs).foldl max 0

/-- A member's speed or acceleration allowance (03, R47, R48). -/
def allowance (limit pathLen : Nat) (d : Int) : Nat := limit * pathLen / (16 * d.natAbs)

/-- The smallest of a value and the allowances of the members that move; `limits` pairs each member's limit with its
displacement (03, R47 to R49). -/
def clampBy (pathLen : Nat) (limits : List (Nat × Int)) (value : Nat) : Nat :=
  limits.foldl (fun m (lim, d) => if d = 0 then m else min m (allowance lim pathLen d)) value

/-- An axis's vmax as its record holds it. -/
def Axis.vmax (a : Axis) : Nat := (a.params.map (·.vmax)).getD 0
/-- An axis's amax as its record holds it. -/
def Axis.amax (a : Axis) : Nat := (a.params.map (·.amax)).getD 0

/-- The active segment that a start makes of a record, from the members' records and the flight's hold deceleration (02, R34;
03, R46 to R49). -/
def activeOf (members : List Axis) (holdDecel : Nat) (seg : Segment) (byCue : Bool) : Active :=
  let starts := members.map (·.setPoint)
  let ds := displacements seg starts
  let len := pathLength ds
  let speeds := (members.map (·.vmax)).zip ds
  let accels := (members.map (·.amax)).zip ds
  { seg := seg
    starts := starts
    pathLen := len
    pos := 0
    speed := 0
    vEff := clampBy len speeds seg.vmax
    aUpEff := clampBy len accels seg.aUp
    aDnEff := clampBy len accels seg.aDn
    aHoldEff := clampBy len accels holdDecel
    aStop := none
    byCue := byCue }

/-! ### The start procedure (02, section 2.6) -/

/-- The member axis records of a flight, slot 0 first. -/
def State.memberAxes (s : State) (f : FlightId) : List Axis := (s.flight f).members.map s.axis

/-- A present target lies within the soft limits of the axis of its slot, both inclusive; an absent one is not checked
(02, R24 check 5, R31). -/
def targetWithin (a : Axis) (t : Option Int) : Bool :=
  match t, a.params with
  | none, _ => true
  | some x, some p => inRange p.lower p.upper x
  | some _, none => false

/-- Every present target of a record within the limits of the member of its slot. -/
def targetsWithin (members : List Axis) (seg : Segment) : Bool :=
  members.zipIdx.all fun (a, i) => targetWithin a (seg.target i)

/-- A slot's result is valid and its tared value lies in the window, both ends inclusive (02, R32). -/
def slotInWindow (lo hi : Int) (k : Slot) : Bool := k.valid && inRange lo hi k.tared

/-- The load check: every member whose axis names a slot passes (02, R32). -/
def loadPasses (s : State) (f : FlightId) : Bool :=
  (s.memberAxes f).all fun a =>
    match a.params.bind (·.slot) with
    | none => true
    | some k => slotInWindow (s.flight f).loadMin (s.flight f).loadMax (s.slot k)

/-- A record rejected at start: REJECT raised; a flight that was not READY goes READY (02, R33). -/
def rejectStart (f : FlightId) (s : State) : State :=
  if (s.flight f).state = .ready then raiseReject f s else putFlightState f .ready (raiseReject f s)

/-- A record that passed both checks, already removed from the queue, becomes active (02, R34); queue-low is set and LOW
raised where the queue is now empty (02, R27). -/
def activate (f : FlightId) (seg : Segment) (byCue : Bool) (s : State) : State :=
  let act := activeOf (s.memberAxes f) (s.flight f).holdDecel seg byCue
  if (s.flight f).queue.isEmpty then
    putFlightState f .moving (raiseLow f (s.updFlight f fun r => { r with active := some act, queueLow := true }))
  else putFlightState f .moving (s.updFlight f fun r => { r with active := some act })

/-- The start procedure on the head of a flight's queue; the code is what a GO answers (02, R29, R31 to R34). -/
def startHead (byCue : Bool) (f : FlightId) (s : State) : State × ResultCode :=
  match (s.flight f).queue with
  | [] => (s, .queueEmpty)
  | seg :: rest =>
    let s1 := s.updFlight f fun r => { r with queue := rest }
    if targetsWithin (s1.memberAxes f) seg = false then (rejectStart f s1, .outOfLimits)
    else if (seg.loadCheck && !loadPasses s1 f) = true then (rejectStart f s1, .loadOutOfWindow)
    else (activate f seg byCue s1, .done)

/-- The follow decision (02, R39). -/
def followDecision (f : FlightId) (s : State) : State :=
  match (s.flight f).queue with
  | [] => putFlightState f .ready s
  | seg :: _ => if seg.start = .follow then (startHead false f s).1 else putFlightState f .ready s

/-! ### Completion (02, R35 to R37; 05, R88) -/

/-- A recycled copy offered to the tail (02, R37). -/
def recycleCopy (f : FlightId) (seg : Segment) (s : State) : State :=
  if seg.recycle then
    if (s.flight f).queue.length < queueCapacity then s.updFlight f fun r => { r with queue := r.queue ++ [seg] }
    else raiseLost f s
  else s

/-- The cue gate at a completion (02, R36). -/
def gateAfter (act : Active) (gate : CueGate) : CueGate := if act.byCue && !act.seg.recycle then .closed else gate

/-- Steps 1 to 4 of a completion (02, R35). -/
def closeSegment (f : FlightId) (act : Active) (s : State) : State :=
  (recycleCopy f act.seg (raiseDone f s)).updFlight f fun r =>
    { r with cueGate := gateAfter act r.cueGate, active := none }

/-- Completion of a MOVING flight: to DWELL, or on by the follow decision (02, R35 step 5). -/
def completeMoving (f : FlightId) (act : Active) (s : State) : State :=
  let s1 := closeSegment f act s
  if act.seg.dwell = 0 then followDecision f s1
  else putFlightState f .dwell (s1.updFlight f fun r => { r with dwell := some act.seg.dwell })

/-- Completion of a STOPPING flight: the landing in HELD (05, R88). -/
def completeStopping (f : FlightId) (act : Active) (s : State) : State :=
  let s1 := closeSegment f act s
  if act.seg.dwell = 0 then putFlightState f .held s1
  else putFlightState f .held (s1.updFlight f fun r => { r with dwell := some act.seg.dwell })

/-! ### The step rules (03, sections 3.6 to 3.8) -/

/-- D(x) under the deceleration a (03, R52). -/
def brakingDistance (a x : Nat) : Nat := x / a * x - a * (x / a) * (x / a + 1) / 2

/-- A candidate speed qualifies on a remaining path (03, R54). -/
def qualifies (a remaining x : Nat) : Bool := decide (x + brakingDistance a x ≤ remaining)

/-- The largest qualifying candidate, tested in the order up, same, down (03, R54). -/
def chosenCandidate (act : Active) (remaining : Nat) : Nat :=
  let up := min (act.speed + act.aUpEff) act.vEff
  let down := act.speed - act.aDnEff
  if qualifies act.aDnEff remaining up then up
  else if qualifies act.aDnEff remaining act.speed then act.speed
  else if qualifies act.aDnEff remaining down then down
  else 0

/-- The new speed of a MOVING flight with path remaining: the chosen candidate, or the creep speed where that is 0 (03, R54,
R55). -/
def movingSpeed (act : Active) (remaining : Nat) : Nat :=
  if chosenCandidate act remaining = 0 then min remaining act.aDnEff else chosenCandidate act remaining

/-- The new speed of a STOPPING flight (03, R58). -/
def stoppingSpeed (act : Active) : Nat := act.speed - act.aStop.getD act.stopRate

/-- The active segment after an advance at speed v (03, R56, R58). -/
def Active.advanced (act : Active) (v : Nat) : Active := { act with pos := act.pos + v, speed := v }

/-- The interpolated set-point of a member slot (04, R64): start + trunc(Δ × s / L). -/
def setPointAt (act : Active) (i : Nat) : Int :=
  act.starts.getD i 0 + (((displacements act.seg act.starts).getD i 0) * (act.pos : Int)).tdiv (act.pathLen : Int)

/-- The member slot of an axis in a flight. -/
def slotIn (members : List AxisId) (n : AxisId) : Option Nat := members.findIdx? fun m => decide (m = n)

/-- The interpolator writes the members' set-points; not to a FAULTED member, and not where L is 0 (04, R64). -/
def writeSetPoints (f : FlightId) (act : Active) (s : State) : State :=
  if act.pathLen = 0 then s
  else
    s.mapAxes fun n a =>
      match slotIn (s.flight f).members n with
      | none => a
      | some i => if a.state = .faulted then a else { a with setPoint := setPointAt act i }

/-- An advance: the path state stored, the set-points written from it. -/
def advance (f : FlightId) (act : Active) (s : State) : State :=
  writeSetPoints f act (s.updFlight f fun r => { r with active := some act })

/-- The work for a MOVING flight at an expiry (03, R53 to R56). -/
def movingStep (f : FlightId) (act : Active) (s : State) : State :=
  if act.pathLen - act.pos = 0 then completeMoving f act s
  else
    let next := act.advanced (movingSpeed act (act.pathLen - act.pos))
    if next.pos = next.pathLen then completeMoving f next (advance f next s) else advance f next s

/-- The work for a STOPPING flight at an expiry (03, R58, R59; 05, R88). -/
def stoppingStep (f : FlightId) (act : Active) (s : State) : State :=
  let next := act.advanced (stoppingSpeed act)
  if next.pos = next.pathLen then completeStopping f next (advance f next s)
  else if next.speed = 0 then putFlightState f .held (advance f { next with aStop := none } s)
  else advance f next s

/-- The end of a dwell: the dwell remaining removed, the follow decision made (02, R38). -/
def endDwell (f : FlightId) (s : State) : State := followDecision f (s.updFlight f fun r => { r with dwell := none })

/-- The work for a DWELL flight at an expiry (02, R38). -/
def dwellStep (f : FlightId) (d : Nat) (s : State) : State :=
  if d ≤ 1 then endDwell f s else s.updFlight f fun r => { r with dwell := some (d - 1) }

/-- The first member, slot 0 first, that is still RELEASING (01, R15). -/
def firstReleasing (f : FlightId) (s : State) : Option AxisId :=
  (s.flight f).members.find? fun n => decide ((s.axis n).state = .releasing)

/-- The work for an ARMING flight at an expiry (01, R15). -/
def armingStep (f : FlightId) (t : Nat) (s : State) : State :=
  let s1 := s.updFlight f fun r => { r with armTimer := some (t - 1) }
  if t ≤ 1 then
    match firstReleasing f s with
    | some n => tripFlight f (.brakeTimeout n) s1
    | none => s1
  else s1

/-- The path generator's work for one flight at a step expiry (03, R44). -/
def pathStep (f : FlightId) (s : State) : State :=
  match (s.flight f).state with
  | .moving =>
    match (s.flight f).active with
    | some act => movingStep f act s
    | none => s
  | .stopping =>
    match (s.flight f).active with
    | some act => stoppingStep f act s
    | none => s
  | .dwell =>
    match (s.flight f).dwell with
    | some d => dwellStep f d s
    | none => s
  | .arming =>
    match (s.flight f).armTimer with
    | some t => armingStep f t s
    | none => s
  | .free | .parked | .ready | .held | .tripped => s

end Sys2Proof.Machine
end

