-- ==== Sys2Proof/Machine/Reflex.lean ====
section
/-! DEFINITION. The authority unit and the reflex table: station enables, persisting conditions, cues, and the actions of the
links at an event of their source (06, sections 6.3, 6.4; 09, sections 9.2, 9.3). -/

namespace Sys2Proof.Machine

/-! ### Levels and persisting conditions -/

/-- Whether a source's level says that a condition holds; an edge condition holds at no time (09, R158, R166). -/
def levelHolds (s : State) (src : Source) (cond : Condition) : Bool :=
  match src, cond with
  | .line n, .high => decide ((s.line n).filtered = some .high)
  | .line n, .low => decide ((s.line n).filtered = some .low)
  | .slot k, .overLimit => (s.slot k).isOver
  | .slot k, .underLimit => (s.slot k).isUnder
  | _, .rise => false
  | _, .fall => false
  | _, .slackEdge => false
  | .line _, .overLimit => false
  | .line _, .underLimit => false
  | .slot _, .high => false
  | .slot _, .low => false

/-- A link's level condition is true. -/
def Link.holds (l : Link) (s : State) : Bool := levelHolds s l.source l.cond

/-- The flights a link's hold or trip reaches. -/
def Action.stops (act : Action) (f : FlightId) : Bool :=
  match act with
  | .holdFlight g | .tripFlight g => decide (g = f)
  | .holdAll | .tripAll => true
  | .cueFlight _ | .enableStation _ => false

/-- An in-use link satisfies a test. -/
def State.anyLink (s : State) (p : Link → Bool) : Bool :=
  allLinks.any fun i =>
    match s.link i with
    | none => false
    | some l => p l

/-- A persisting condition holds for the flight (09, R167). -/
def State.persists (s : State) (f : FlightId) : Bool := s.anyLink fun l => l.action.stops f && l.holds s

/-! ### Station enables (06, R113 to R115) -/

/-- A station's enable as its links give it (06, R113). -/
def enableOf (s : State) (st : Station) : Bool :=
  s.anyLink (fun l => decide (l.action = .enableStation st)) &&
    !s.anyLink (fun l => decide (l.action = .enableStation st) && !l.holds s)

/-- The station holds its enable and is ACTIVE (06, R111). -/
def State.mayStart (s : State) (st : Station) : Bool := s.enables.get st && !s.silents.get st

/-- The authority unit computes a station's enable again; a change from true to false is an enable loss (06, R114, R115). -/
def recomputeEnable (st : Station) (s : State) : State :=
  let s1 := s.setEnable st (enableOf s st)
  if s.enables.get st && !enableOf s st then restrainClaimed st .enableLost s1 else s1

/-! ### Link actions (09, R165, R166) -/

/-- A cue to a flight (02, R30). A level link that holds or trips the flight refuses the cue of the very event that makes its
condition true, since the cue meets the condition true (02, R30; 09, R166, R167; log entry 16). -/
def cueFlight (f : FlightId) (s : State) : State :=
  let r := s.flight f
  match r.queue, r.claim with
  | seg :: _, some st =>
    if decide (r.state = .ready) && decide (r.cueGate = .opened) && decide (seg.start = .cue) && s.mayStart st &&
        !s.persists f then
      (startHead true f s).1
    else s
  | [], _ => s
  | _, none => s

/-- One effect of an event of a source: a request to one flight, or an enable computed again. -/
inductive Effect where
  | hold (f : FlightId) (cause : HoldCause)
  | trip (f : FlightId) (cause : TripCause)
  | cue (f : FlightId)
  | recompute (st : Station)
  deriving DecidableEq, Repr

/-- An effect taken by its owner. -/
def takeEffect (e : Effect) (s : State) : State :=
  match e with
  | .hold f cause => holdFlight f cause s
  | .trip f cause => tripFlight f cause s
  | .cue f => cueFlight f s
  | .recompute st => recomputeEnable st s

/-- What a link sends when it acts (09, R165); an ENABLE_STATION link sends no request (R166). -/
def sends (i : LinkId) (act : Action) : List Effect :=
  match act with
  | .holdFlight f => [.hold f (.linkHold i)]
  | .holdAll => allFlights.map fun f => .hold f (.holdAllLink i)
  | .tripFlight f => [.trip f (.linkTrip i)]
  | .tripAll => allFlights.map fun f => .trip f (.linkTrip i)
  | .cueFlight f => [.cue f]
  | .enableStation _ => []

/-- The in-use links that act at an event of a source at which the conditions `occurs` occur or become true (09, R165, R166). -/
def actingLinks (s : State) (src : Source) (occurs : Condition → Bool) : List LinkId :=
  allLinks.filter fun i =>
    match s.link i with
    | none => false
    | some l => decide (l.source = src) && occurs l.cond

/-- What those links send. -/
def linkSends (s : State) (src : Source) (occurs : Condition → Bool) : List Effect :=
  (actingLinks s src occurs).flatMap fun i =>
    match s.link i with
    | none => []
    | some l => sends i l.action

/-- The enables to compute again at an event of a source: those of the stations named by its in-use ENABLE_STATION links (06,
R114). -/
def enableEffects (s : State) (src : Source) : List Effect :=
  (allStations.filter fun st =>
    s.anyLink fun l => decide (l.source = src) && decide (l.action = .enableStation st)).map .recompute

/-- The reflex table and the authority unit at an event of a source: every link's sends and the enables to compute again,
in any order (09, R161, R168; 08, R153). `recomputes` says whether the event changed a level. -/
def sourceEvent (src : Source) (occurs : Condition → Bool) (recomputes : Bool) (s : State) : State :=
  takeInAnyOrder (linkSends s src occurs ++ if recomputes then enableEffects s src else []) takeEffect s

end Sys2Proof.Machine
end

