-- ==== Sys2Proof/Machine/Flights.lean ====
section
/-! DEFINITION. Building a flight and bringing it to READY and back (01): BIND, UNBIND, CONFIGURE_AXIS, SET_FLIGHT_LIMITS, ARM and
PARK. -/

namespace Sys2Proof.Machine

/-- A driving request on a flight: its number, then the claim (06, R111 checks 1 and 2), then its owner. -/
def driving (st : Station) (flight : Byte) (s : State) (owner : FlightId → State × Answer) : State × Answer :=
  match flightOf flight with
  | none => refuse s .badParameter
  | some f => if (s.flight f).claim = some st then owner f else refuse s .notClaimed

/-- A driving request that also needs the requester's enable and an ACTIVE requester (06, R111 check 3). -/
def drivingEnabled (st : Station) (flight : Byte) (s : State) (owner : FlightId → State × Answer) : State × Answer :=
  driving st flight s fun f => if s.mayStart st then owner f else refuse s .notEnabled

/-! ### Membership (01, R7 to R9) -/

/-- The axes of a BIND: one to four, each an axis number, none twice (01, R7 check 1). -/
def bindAxesOf (axes : List Byte) : Option (List AxisId) :=
  let ns := axes.filterMap axisOf
  if ns.length = axes.length ∧ 1 ≤ axes.length ∧ axes.length ≤ 4 ∧ ns.Nodup then some ns else none

/-- An axis that BIND cannot make a member of the flight: UNCONFIGURED, or a member of another (01, R7 check 4). -/
def unavailableFor (f : FlightId) (a : Axis) : Bool :=
  decide (a.state = .unconfigured) || decide (a.flight ≠ none ∧ a.flight ≠ some f)

/-- The effects of an accepted BIND (01, R8). -/
def bindMembers (f : FlightId) (ns : List AxisId) (s : State) : State :=
  let s1 := s.mapAxes fun n a =>
    if n ∈ ns then { a with flight := some f } else if n ∈ (s.flight f).members then { a with flight := none } else a
  let s2 := s1.updFlight f fun r => { r with members := ns, queue := [], queueLow := false }
  if (s.flight f).state = .free then putFlightState f .parked (brakeMembers f s2) else s2

/-- BIND (01, R7). -/
def serveBind (st : Station) (flight : Byte) (axes : List Byte) (s : State) : State × Answer :=
  match flightOf flight, bindAxesOf axes with
  | some f, some ns =>
    if (s.flight f).claim ≠ some st then refuse s .notClaimed
    else if (s.flight f).state ≠ .free ∧ (s.flight f).state ≠ .parked then refuse s .badState
    else if ns.any (fun n => unavailableFor f (s.axis n)) = true then refuse s .axisUnavailable
    else if ns.any (fun n => decide ((s.axis n).state = .faulted)) = true then refuse s .axisFault
    else accept (bindMembers f ns s)
  | _, _ => refuse s .badParameter

/-- The effects of an accepted UNBIND (01, R9). -/
def unbindMembers (f : FlightId) (s : State) : State :=
  let s1 := s.mapAxes fun n a => if n ∈ (s.flight f).members then { a with flight := none } else a
  putFlightState f .free (s1.updFlight f fun r =>
    { r with members := [], queue := [], queueLow := false, holdCause := none })

/-- UNBIND (01, R9). -/
def serveUnbind (st : Station) (flight : Byte) (s : State) : State × Answer :=
  driving st flight s fun f =>
    if (s.flight f).state = .parked then accept (unbindMembers f s) else refuse s .badState

/-! ### Axis configuration (01, R5, R6) -/

/-- Another axis that is not UNCONFIGURED holds the drive address (01, R5 check 4). -/
def addressTaken (n : AxisId) (address : BitVec 7) (s : State) : Bool :=
  allAxes.any fun m =>
    decide (m ≠ n) && decide ((s.axis m).state ≠ .unconfigured) &&
      decide ((s.axis m).params.map (·.address) = some address)

/-- Whether a CONFIGURE-AXIS changes the drive address the axis held before; an axis with no address takes its first (01,
R6). -/
def changesAddress (a : Axis) (p : AxisParams) : Bool := decide (a.params.map (·.address) ≠ some p.address)

/-- The axis record after an accepted CONFIGURE-AXIS (01, R6; 07, R133, R134). -/
def Axis.configured (a : Axis) (p : AxisParams) : Axis :=
  let b : Axis := { a with params := some p }
  let c : Axis :=
    if changesAddress a p then
      { b with measured := none, driveStatus := none, lastWrite := none, missedStreak := 0, writeStreak := 0 }
    else b
  match a.state with
  | .unconfigured => { c with state := .braked, setPoint := 0, measured := none, driveStatus := none, lastWrite := none,
                              missedStreak := 0, writeStreak := 0 }
  | .faulted => { c with state := .braked, faultCause := none }
  | .braked | .releasing | .following => c

/-- A running exchange with an axis whose address changes is to be discarded (01, R6; 07, R125). -/
def discardFor (n : AxisId) (x : Exchange) : Exchange := if x.axis = n then { x with discarded := true } else x

/-- The effects of an accepted CONFIGURE-AXIS (01, R6). -/
def configureAxis (n : AxisId) (p : AxisParams) (s : State) : State :=
  let s1 := putAxis n (fun a => a.configured p) s
  if changesAddress (s.axis n) p then { s1 with exchange := s1.exchange.map (discardFor n) } else s1

/-- CONFIGURE-AXIS (01, R5). -/
def serveConfigureAxis (st : Station) (axis address : Byte) (lower upper vmax : Word) (amax : Half) (window : Word)
    (slot : Byte) (s : State) : State × Answer :=
  match axisOf axis, paramsOf address lower upper vmax amax window slot with
  | some n, some p =>
    let bound := (s.axis n).flight
    if bound.any (fun f => decide ((s.flight f).claim ≠ some st)) = true then refuse s .notClaimed
    else if bound.any (fun f => decide ((s.flight f).state ≠ .parked)) = true then refuse s .axisUnavailable
    else if addressTaken n p.address s = true then refuse s .addressInUse
    else if (s.axis n).missedStreak = streakLimit then refuse s .axisFault
    else accept (configureAxis n p s)
  | _, _ => refuse s .badParameter

/-! ### Flight limits (01, R20, R21) -/

/-- The fields of a SET-FLIGHT-LIMITS in their ranges (01, R20). -/
def limitsOf (holdDecel loadMin loadMax : Half) : Option (Nat × Int × Int) :=
  match tensionOf loadMin, tensionOf loadMax with
  | some lo, some hi => if inRange 1 maxAccel holdDecel.toNat ∧ lo ≤ hi then some (holdDecel.toNat, lo, hi) else none
  | _, _ => none

/-- SET-FLIGHT-LIMITS (01, R20, R21). -/
def serveSetFlightLimits (st : Station) (flight : Byte) (holdDecel loadMin loadMax : Half) (s : State) : State × Answer :=
  match limitsOf holdDecel loadMin loadMax with
  | none => refuse s .badParameter
  | some (decel, lo, hi) =>
    driving st flight s fun f =>
      accept (s.updFlight f fun r => { r with holdDecel := decel, loadMin := lo, loadMax := hi })

/-! ### Arming and parking (01, R12, R13, R18, R19) -/

/-- The effects of an accepted ARM (01, R13; 04, R66). -/
def armFlight (f : FlightId) (s : State) : State :=
  let s1 := s.mapAxes fun n a =>
    if n ∈ (s.flight f).members then { a with state := .releasing, setPoint := a.measured.getD a.setPoint } else a
  putFlightState f .arming (s1.updFlight f fun r => { r with armTimer := some armingSteps })

/-- ARM (01, R12). -/
def serveArm (st : Station) (flight : Byte) (s : State) : State × Answer :=
  drivingEnabled st flight s fun f =>
    if (s.flight f).state ≠ .parked then refuse s .badState
    else if s.persists f = true then refuse s .conditionPersists
    else if (s.memberAxes f).any (fun a => a.measured.isNone) = true then refuse s .axisUnavailable
    else accept (armFlight f s)

/-- The effects of an accepted PARK (01, R19). -/
def parkFlight (f : FlightId) (s : State) : State :=
  putFlightState f .parked ((brakeMembers f s).updFlight f fun r => { r with active := none, dwell := none })

/-- PARK (01, R18). -/
def servePark (st : Station) (flight : Byte) (s : State) : State × Answer :=
  driving st flight s fun f =>
    if (s.flight f).state = .ready ∨ (s.flight f).state = .held then accept (parkFlight f s) else refuse s .badState

/-- BIND. -/
def execBind (st : Station) (flight : Byte) (axes : List Byte) (s : State) : Out :=
  onRequest st kindBind (serveBind st flight axes) s

/-- UNBIND. -/
def execUnbind (st : Station) (flight : Byte) (s : State) : Out := onRequest st kindUnbind (serveUnbind st flight) s

/-- CONFIGURE_AXIS. -/
def execConfigureAxis (st : Station) (axis address : Byte) (lower upper vmax : Word) (amax : Half) (window : Word)
    (slot : Byte) (s : State) : Out :=
  onRequest st kindConfigureAxis (serveConfigureAxis st axis address lower upper vmax amax window slot) s

/-- SET_FLIGHT_LIMITS. -/
def execSetFlightLimits (st : Station) (flight : Byte) (holdDecel loadMin loadMax : Half) (s : State) : Out :=
  onRequest st kindSetFlightLimits (serveSetFlightLimits st flight holdDecel loadMin loadMax) s

/-- ARM. -/
def execArm (st : Station) (flight : Byte) (s : State) : Out := onRequest st kindArm (serveArm st flight) s

/-- PARK. -/
def execPark (st : Station) (flight : Byte) (s : State) : Out := onRequest st kindPark (servePark st flight) s

end Sys2Proof.Machine
end

