-- ==== Sys2Proof/Machine/Lines.lean ====
section
/-! DEFINITION. The sense lines and their filters (09, section 9.1), with the commands RAW_LEVEL_CHANGE, FILTER_ACCEPT and
LINE_SETTLE. -/

namespace Sys2Proof.Machine

/-- The conditions that an accepted change of a line to a level makes occur or become true (09, R159, R165, R166). -/
def changeOccurs (level : Level) (cond : Condition) : Bool :=
  match cond, level with
  | .rise, .high | .high, .high | .fall, .low | .low, .low => true
  | .rise, .low | .high, .low | .fall, .high | .low, .high => false
  | .overLimit, _ | .underLimit, _ | .slackEdge, _ => false

/-- The conditions that the settling of a line at a level makes true: no edge (09, R158). -/
def settleOccurs (level : Level) (cond : Condition) : Bool :=
  match cond, level with
  | .high, .high | .low, .low => true
  | .high, .low | .low, .high => false
  | .rise, _ | .fall, _ | .overLimit, _ | .underLimit, _ | .slackEdge, _ => false

/-- An accepted change of a settled line (09, R159, R161). -/
def acceptChange (n : LineId) (level : Level) (s : State) : State :=
  sourceEvent (.line n) (changeOccurs level) true
    (raiseLineChange n (s.updLine n fun l => { l with filtered := some level, pending := none }))

/-- The first settling of a line at its raw level (09, R158). -/
def settleLine (n : LineId) (s : State) : State :=
  sourceEvent (.line n) (settleOccurs (s.line n).raw) true
    (s.updLine n fun l => { l with filtered := some l.raw, pending := none })

/-- The raw level of a line taken at once, as the filter being off gives it: a first settling, an accepted change, or
nothing where it is the filtered level already (09, R158 to R160). -/
def takeRaw (n : LineId) (s : State) : State :=
  match (s.line n).filtered with
  | none => settleLine n s
  | some level => if level = (s.line n).raw then s else acceptChange n (s.line n).raw s

/-- A raw level change reaching the filter (09, R159). -/
def filterRaw (n : LineId) (s : State) : State :=
  if (s.line n).filterOn then
    match (s.line n).filtered with
    | none => s
    | some level =>
      s.updLine n fun l => { l with pending := if level = l.raw then none else some l.raw }
  else takeRaw n s

/-- A level at the pin; while RESETN is asserted the filter does not run (09, R158). -/
def rawChange (n : LineId) (level : Level) (s : State) : State :=
  if (s.line n).raw = level then s
  else
    let s1 := s.updLine n fun l => { l with raw := level }
    if s.resetAsserted then s1 else filterRaw n s1

/-- The filter enables of all lines written together (09, R160): the lines whose filter goes off take their raw level at
once, in any order. -/
def writeFilters (w : Half) (s : State) : State :=
  let off := allLines.filter fun n => (s.line n).filterOn && !w.getLsbD n
  let s1 := { s with lines := mapAt s.lines fun n l =>
    { l with filterOn := w.getLsbD n, pending := if l.filterOn && !w.getLsbD n then none else l.pending } }
  takeInAnyOrder (off.filter fun n => decide ((s.line n).filtered ≠ some (s.line n).raw)) takeRaw s1

/-- RAW_LEVEL_CHANGE. -/
def execRawLevelChange (line : LineId) (level : Level) (s : State) : Out := .next (rawChange line level s)

/-- FILTER_ACCEPT: the pending level of a settled line with its filter on is accepted (09, R159). Without one the event
cannot occur and nothing changes (log entry 4). -/
def execFilterAccept (line : LineId) (s : State) : Out :=
  .next <|
    match (s.line line).filtered, (s.line line).pending with
    | some _, some level =>
      if !s.resetAsserted && (s.line line).filterOn then acceptChange line level s else s
    | _, none => s
    | none, _ => s

/-- LINE_SETTLE: an unsettled line settles at its raw level (09, R158). On a settled line the event cannot occur and nothing
changes (log entry 4). -/
def execLineSettle (line : LineId) (s : State) : Out :=
  .next (if !s.resetAsserted && decide ((s.line line).filtered = none) then settleLine line s else s)

end Sys2Proof.Machine
end

