-- ==== Sys2Proof/Machine/Links.lean ====
section
/-! DEFINITION. Writing the reflex table (09, R163, R164): SET_LINK and CLEAR_LINK. -/

namespace Sys2Proof.Machine

/-- The station whose enable an entry contributes to. -/
def enableTarget : Option Link → Option Station
  | none => none
  | some l =>
    match l.action with
    | .enableStation st => some st
    | .holdFlight _ | .holdAll | .tripFlight _ | .tripAll | .cueFlight _ => none

/-- The stations named by the entry replaced and by the entry written, each once (09, R163; 06, R114). -/
def stationsNamed (before after : Option Link) : List Station :=
  allStations.filter fun st => decide (enableTarget before = some st ∨ enableTarget after = some st)

/-- An entry written: a level link whose condition is true acts at once, and the enables concerned are computed again with
the new entry in place (09, R163, R166). -/
def writeLink (i : LinkId) (l : Link) (s : State) : State :=
  let s1 := s.setLink i (some l)
  takeInAnyOrder ((if l.holds s1 then sends i l.action else []) ++ (stationsNamed (s.link i) (some l)).map .recompute)
    takeEffect s1

/-- An entry taken out of use (09, R164). -/
def clearEntry (i : LinkId) (s : State) : State :=
  let s1 := s.setLink i none
  match enableTarget (s.link i) with
  | some st => recomputeEnable st s1
  | none => s1

/-- SET-LINK (09, R163). -/
def serveSetLink (link source condition action target : Byte) (s : State) : State × Answer :=
  match linkOf link, linkFieldsOf source condition action target with
  | some i, some l => accept (writeLink i l s)
  | _, _ => refuse s .badParameter

/-- CLEAR-LINK (09, R164). -/
def serveClearLink (link : Byte) (s : State) : State × Answer :=
  match linkOf link with
  | none => refuse s .badParameter
  | some i => accept (clearEntry i s)

/-- SET_LINK. -/
def execSetLink (st : Station) (link source condition action target : Byte) (s : State) : Out :=
  onRequest st kindSetLink (serveSetLink link source condition action target) s

/-- CLEAR_LINK. -/
def execClearLink (st : Station) (link : Byte) (s : State) : Out := onRequest st kindClearLink (serveClearLink link) s

end Sys2Proof.Machine
end

