-- ==== Sys2Proof/Machine/Motion.lean ====
section
/-! DEFINITION. Starting, stopping and recovering a flight, and its queue (02, 05): GO, RESUME, CANCEL, RESET_FLIGHT, OPEN_CUE,
CLOSE_CUE, HOLD, HOLD_ALL, STOP, APPEND and FLUSH. -/

namespace Sys2Proof.Machine

/-- GO (02, R29). -/
def serveGo (st : Station) (flight : Byte) (s : State) : State × Answer :=
  drivingEnabled st flight s fun f =>
    if (s.flight f).state ≠ .ready then refuse s .badState
    else if s.persists f = true then refuse s .conditionPersists
    else
      let r := startHead false f s
      (r.1, { code := r.2, data := [] })

/-- The effects of an accepted RESUME (05, R91). -/
def resumeFlight (f : FlightId) (s : State) : State :=
  match (s.flight f).active, (s.flight f).dwell with
  | some act, _ =>
    putFlightState f .moving (s.updFlight f fun r => { r with active := some { act with speed := 0, aStop := none } })
  | none, some _ => putFlightState f .dwell s
  | none, none => putFlightState f .ready s

/-- RESUME (05, R90). -/
def serveResume (st : Station) (flight : Byte) (s : State) : State × Answer :=
  drivingEnabled st flight s fun f =>
    if (s.flight f).state ≠ .held then refuse s .badState
    else if s.persists f = true then refuse s .conditionPersists
    else accept (resumeFlight f s)

/-- CANCEL (05, R92). -/
def serveCancel (st : Station) (flight : Byte) (s : State) : State × Answer :=
  driving st flight s fun f =>
    if (s.flight f).state = .held then
      accept (putFlightState f .ready (s.updFlight f fun r => { r with active := none, dwell := none }))
    else refuse s .badState

/-- A member that refuses RESET-FLIGHT: its stored drive status has FAULT set, or its missed streak is 3 (05, R99
check 4). -/
def blocksReset (a : Axis) : Bool := a.driveStatus.any (fun b => b.getLsbD 6) || decide (a.missedStreak = streakLimit)

/-- The effects of an accepted RESET-FLIGHT (05, R100). -/
def resetTripped (f : FlightId) (s : State) : State :=
  let s1 := s.mapAxes fun n a =>
    if n ∈ (s.flight f).members ∧ a.state = .faulted then { a with state := .braked, faultCause := none } else a
  putFlightState f .parked ((brakeMembers f s1).updFlight f fun r =>
    { r with active := none, tripCause := none, furtherTrips := false })

/-- RESET-FLIGHT (05, R99). -/
def serveResetFlight (st : Station) (flight : Byte) (s : State) : State × Answer :=
  driving st flight s fun f =>
    if (s.flight f).state ≠ .tripped then refuse s .badState
    else if s.persists f = true then refuse s .conditionPersists
    else if (s.memberAxes f).any blocksReset = true then refuse s .axisFault
    else accept (resetTripped f s)

/-- OPEN-CUE (02, R28). -/
def serveOpenCue (st : Station) (flight : Byte) (s : State) : State × Answer :=
  driving st flight s fun f => accept (s.updFlight f fun r => { r with cueGate := .opened })

/-- CLOSE-CUE (02, R28). -/
def serveCloseCue (st : Station) (flight : Byte) (s : State) : State × Answer :=
  driving st flight s fun f => accept (s.updFlight f fun r => { r with cueGate := .closed })

/-- HOLD (05, R83). -/
def serveHold (st : Station) (flight : Byte) (s : State) : State × Answer :=
  match flightOf flight with
  | none => refuse s .badParameter
  | some f => accept (holdFlight f (.stationHold st) s)

/-- HOLD-ALL (05, R84). -/
def serveHoldAll (st : Station) (s : State) : State × Answer := accept (holdEvery (.holdAllStation st) s)

/-- STOP: a flight, or 0xFF for the mark ALL (05, R94; 10, R179). -/
def serveStop (st : Station) (flight : Byte) (s : State) : State × Answer :=
  if flight = 0xFF then accept (tripEvery (.stationStop st) s)
  else
    match flightOf flight with
    | none => refuse s .badParameter
    | some f => accept (tripFlight f (.stationStop st) s)

/-- A target is present for a slot that the flight has no member in (02, R24 check 4). -/
def targetWithoutMember (members : List AxisId) (seg : Segment) : Bool :=
  [0, 1, 2, 3].any fun i => decide (members.length ≤ i) && (seg.target i).isSome

/-- APPEND (02, R24, R25). -/
def serveAppend (st : Station) (flight : Byte) (tag : Half) (presence : Byte) (t0 t1 t2 t3 vmax : Word)
    (aUp aDn dwell : Half) (start flags : Byte) (s : State) : State × Answer :=
  match segmentOf tag presence t0 t1 t2 t3 vmax aUp aDn dwell start flags with
  | none => refuse s .badParameter
  | some seg =>
    driving st flight s fun f =>
      if (s.flight f).state = .free then refuse s .badState
      else if targetWithoutMember (s.flight f).members seg = true then refuse s .badParameter
      else if targetsWithin (s.memberAxes f) seg = false then refuse s .outOfLimits
      else if queueCapacity ≤ (s.flight f).queue.length then refuse s .queueFull
      else accept (s.updFlight f fun r => { r with queue := r.queue ++ [seg], queueLow := false })

/-- FLUSH (02, R26). -/
def serveFlush (st : Station) (flight : Byte) (s : State) : State × Answer :=
  driving st flight s fun f =>
    if (s.flight f).state = .free then refuse s .badState
    else accept (s.updFlight f fun r => { r with queue := [] })

/-- GO. -/
def execGo (st : Station) (flight : Byte) (s : State) : Out := onRequest st kindGo (serveGo st flight) s
/-- RESUME. -/
def execResume (st : Station) (flight : Byte) (s : State) : Out := onRequest st kindResume (serveResume st flight) s
/-- CANCEL. -/
def execCancel (st : Station) (flight : Byte) (s : State) : Out := onRequest st kindCancel (serveCancel st flight) s
/-- RESET_FLIGHT. -/
def execResetFlight (st : Station) (flight : Byte) (s : State) : Out :=
  onRequest st kindResetFlight (serveResetFlight st flight) s
/-- OPEN_CUE. -/
def execOpenCue (st : Station) (flight : Byte) (s : State) : Out := onRequest st kindOpenCue (serveOpenCue st flight) s
/-- CLOSE_CUE. -/
def execCloseCue (st : Station) (flight : Byte) (s : State) : Out := onRequest st kindCloseCue (serveCloseCue st flight) s
/-- HOLD. -/
def execHold (st : Station) (flight : Byte) (s : State) : Out := onRequest st kindHold (serveHold st flight) s
/-- HOLD_ALL. -/
def execHoldAll (st : Station) (s : State) : Out := onRequest st kindHoldAll (serveHoldAll st) s
/-- STOP. -/
def execStop (st : Station) (flight : Byte) (s : State) : Out := onRequest st kindStop (serveStop st flight) s

/-- APPEND. -/
def execAppend (st : Station) (flight : Byte) (tag : Half) (presence : Byte) (t0 t1 t2 t3 vmax : Word)
    (aUp aDn dwell : Half) (start flags : Byte) (s : State) : Out :=
  onRequest st kindAppend (serveAppend st flight tag presence t0 t1 t2 t3 vmax aUp aDn dwell start flags) s

/-- FLUSH. -/
def execFlush (st : Station) (flight : Byte) (s : State) : Out := onRequest st kindFlush (serveFlush st flight) s

end Sys2Proof.Machine
end

