-- ==== Sys2Proof/Machine/Reads.lean ====
section
/-! DEFINITION. The read requests and the data of their replies (10, section 10.6): STATUS, READ_FLIGHT, READ_AXIS, READ_SLOTS and
READ_LINES. Offsets in the docstrings count from the result code at offset 0. -/

namespace Sys2Proof.Machine

/-! ### STATUS (R182) -/

/-- A port's notices of one flight, STATE in bit 0. -/
def FlightNotices.byte (x : FlightNotices) : Byte := flagsByte [x.state, x.done, x.low, x.lost, x.reject]

/-- A port's error flags, FRAMING in bit 0. -/
def ErrorFlags.byte (e : ErrorFlags) : Byte := flagsByte [e.framing, e.gap, e.length, e.crc, e.overrun]

/-- STATUS data from offset 1. -/
def statusData (st : Station) (s : State) : List Byte :=
  wordBytes s.stepCounter ++
  (allFlights.flatMap fun f => [(s.flight f).state.byte, claimByte (s.flight f).claim]) ++
  (allAxes.map fun n => (s.axis n).state.byte) ++
  (allStations.map fun k => flagsByte [s.enables.get k, s.silents.get k]) ++
  (allFlights.map fun f => ((s.port st).flightNotices[f]).byte) ++
  [flagsByte [(s.port st).linesNotice, (s.port st).linkNotice], (s.port st).errors.byte]

/-- STATUS: reported, then this port's notice and error flags cleared (R181, R182). -/
def serveStatus (st : Station) (s : State) : State × Answer :=
  (clearNotices st s, { code := .done, data := statusData st s })

/-! ### READ-FLIGHT (R183) -/

/-- A path length or path position in four bytes; what is reported of one that does not fit is a free value (log entry 11). -/
def pathBytes (x : Nat) : List Byte := if x < 2 ^ 32 then natWord x else wordBytes (Config.wideReport x)

/-- Segment flags: recycle in bit 0, load check in bit 1 (R180). -/
def Segment.flags (seg : Segment) : Byte := flagsByte [seg.recycle, seg.loadCheck]

/-- Tag, start kind and segment flags of a waiting record. -/
def waitingBytes (seg : Segment) : List Byte := halfBytes seg.tag ++ [seg.start.byte, seg.flags]

/-- The 31 bytes of the active segment record, at offset 24. -/
def segmentBytes (seg : Segment) : List Byte :=
  halfBytes seg.tag ++ [flagsByte (seg.targets.toList.map (·.isSome))] ++
  (seg.targets.toList.flatMap fun t => intWord (t.getD 0)) ++
  natWord seg.vmax ++ natHalf seg.aUp ++ natHalf seg.aDn ++ natHalf seg.dwell ++ [seg.start.byte, seg.flags]

/-- A list of bytes brought to a length with a filler. -/
def padTo (n : Nat) (fill : Byte) (l : List Byte) : List Byte := (l ++ List.replicate n fill).take n

/-- The active segment with its path state, offsets 24 to 94; zeros where there is none (R183). DESIGN CHOICE: the start
position of a slot in which the flight has no member is sent as 0; R45 and R183 state no fill for it (log entry 25). -/
def activeBytes : Option Active → List Byte
  | none => List.replicate 71 0
  | some a =>
    segmentBytes a.seg ++ padTo 16 0 (a.starts.flatMap intWord) ++
    pathBytes a.pathLen ++ pathBytes a.pos ++ natWord a.speed ++ natWord a.vEff ++
    natHalf a.aUpEff ++ natHalf a.aDnEff ++ natHalf a.aHoldEff ++ natHalf (a.aStop.getD 0)

/-- The presence and flag byte at offset 10. -/
def flightFlags (r : Flight) : Byte :=
  flagsByte [r.active.isSome, r.dwell.isSome, r.armTimer.isSome, r.active.any (·.aStop.isSome), r.active.any (·.byCue),
             r.queueLow, r.furtherTrips]

/-- READ-FLIGHT data from offset 1. -/
def flightData (f : FlightId) (r : Flight) : List Byte :=
  [natByte f, r.state.byte, claimByte r.claim, natByte r.members.length] ++
  padTo 4 0xFF (r.members.map fun n => natByte n) ++
  [r.cueGate.byte, flightFlags r] ++ natHalf (r.dwell.getD 0) ++ [natByte (r.armTimer.getD 0)] ++
  holdCauseBytes r.holdCause ++ tripCauseBytes r.tripCause ++
  natHalf r.holdDecel ++ intHalf r.loadMin ++ intHalf r.loadMax ++
  activeBytes r.active ++ [natByte r.queue.length] ++ padTo 32 0 (r.queue.flatMap waitingBytes)

/-- READ-FLIGHT: reported, nothing changed. -/
def serveReadFlight (flight : Byte) (s : State) : State × Answer :=
  match flightOf flight with
  | none => refuse s .badParameter
  | some f => (s, { code := .done, data := flightData f (s.flight f) })

/-! ### READ-AXIS (R184) -/

/-- The parameters at offsets 5 to 24; an UNCONFIGURED axis reports each as 0 (01, R2), its tension slot as absent. -/
def paramsBytes : Option AxisParams → List Byte
  | none => List.replicate 19 0 ++ [0xFF]
  | some p =>
    [p.address.setWidth 8] ++ intWord p.lower ++ intWord p.upper ++ natWord p.vmax ++ natHalf p.amax ++ natWord p.window ++
    [match p.slot with
     | some k => natByte k
     | none => 0xFF]

/-- READ-AXIS data from offset 1. DESIGN CHOICE: the set-point and brake-release bit of an absent last write, an absent measured
position and an absent drive status are sent as 0; R80 and R184 give only their presence marks (log entry 26). -/
def axisData (n : AxisId) (a : Axis) : List Byte :=
  [natByte n, a.state.byte,
   (match a.flight with
    | some f => natByte f
    | none => 0xFF),
   (match a.faultCause with
    | some c => c.byte
    | none => 0)] ++
  paramsBytes a.params ++ intWord a.setPoint ++
  [flagsByte [a.lastWrite.isSome, a.lastWrite.any (·.release), a.measured.isSome, a.driveStatus.isSome]] ++
  intWord ((a.lastWrite.map (·.setPoint)).getD 0) ++ intWord (a.measured.getD 0) ++ [a.driveStatus.getD 0] ++
  [natByte a.missedStreak, natByte a.writeStreak]

/-- READ-AXIS: reported, nothing changed. -/
def serveReadAxis (axis : Byte) (s : State) : State × Answer :=
  match axisOf axis with
  | none => refuse s .badParameter
  | some n => (s, { code := .done, data := axisData n (s.axis n) })

/-! ### READ-SLOTS (R185) -/

/-- The 14 bytes of one slot; a slot without a valid result reports raw and tared as 0. -/
def slotBytes (k : Slot) : List Byte :=
  [natByte k.input, flagsByte [k.enabled, k.valid, decide (k.origin = .injected), k.isOver, k.isUnder]] ++
  natHalf k.tare ++ intHalf k.high ++ intHalf k.low ++ intHalf k.slack ++
  natHalf (if k.valid then k.raw else 0) ++ intHalf (if k.valid then k.tared else 0)

/-- The converting slot, or 0xFF. -/
def convertingByte : ScanState → Byte
  | .scanning k => natByte k
  | .stopped | .waiting => 0xFF

/-- READ-SLOTS data from offset 1. -/
def slotsData (st : Station) (s : State) : List Byte :=
  [s.scanMode.byte, s.scanState.byte, convertingByte s.scanState, flagsByte (s.port st).fresh.toList] ++
  allSlots.flatMap fun k => slotBytes (s.slot k)

/-- READ-SLOTS: reported, then this port's fresh flags cleared. -/
def serveReadSlots (st : Station) (s : State) : State × Answer :=
  (clearFresh st s, { code := .done, data := slotsData st s })

/-! ### READ-LINES (R186) -/

/-- The five bytes of a reflex table entry. -/
def linkBytes : Option Link → List Byte
  | none => [0, 0, 0, 0, 0]
  | some l => [1, l.source.byte, l.cond.byte] ++ l.action.codes

/-- READ-LINES data from offset 1. -/
def linesData (st : Station) (s : State) : List Byte :=
  flagsHalf (allLines.map fun n => decide ((s.line n).filtered = some .high)) ++
  flagsHalf (allLines.map fun n => decide ((s.line n).filtered = none)) ++
  flagsHalf (allLines.map fun n => (s.line n).filterOn) ++
  flagsHalf (s.port st).change.toList ++
  allLinks.flatMap fun i => linkBytes (s.link i)

/-- READ-LINES: the filter enables written where the BODY carries them (09, R160), the lines and links reported, then
this port's change flags cleared. -/
def serveReadLines (st : Station) (filters : Option Half) (s : State) : State × Answer :=
  let s1 :=
    match filters with
    | some w => writeFilters w s
    | none => s
  (clearChange st s1, { code := .done, data := linesData st s1 })

/-- STATUS. -/
def execStatus (st : Station) (s : State) : Out := onRequest st kindStatus (serveStatus st) s
/-- READ_FLIGHT. -/
def execReadFlight (st : Station) (flight : Byte) (s : State) : Out :=
  onRequest st kindReadFlight (serveReadFlight flight) s
/-- READ_AXIS. -/
def execReadAxis (st : Station) (axis : Byte) (s : State) : Out := onRequest st kindReadAxis (serveReadAxis axis) s
/-- READ_SLOTS. -/
def execReadSlots (st : Station) (s : State) : Out := onRequest st kindReadSlots (serveReadSlots st) s
/-- READ_LINES. -/
def execReadLines (st : Station) (filters : Option Half) (s : State) : Out :=
  onRequest st kindReadLines (serveReadLines st filters) s

end Sys2Proof.Machine
end

