-- ==== Sys2Proof/Machine/Scanner.lean ====
section
/-! DEFINITION. The tension scanner (08): scans and their ends, a slot's new result and its hand-off, and the commands SET_SLOT,
SCAN, INJECT and CONVERSION_COMPLETE. -/

namespace Sys2Proof.Machine

/-! ### Scans (08, R144, R146 to R148) -/

/-- A scan begins: at slot 0 where it is enabled; an empty scan ends at once (08, R144, R146). -/
def beginScan (s : State) : State :=
  if (s.slot 0).enabled then { s with scanState := .scanning 0 }
  else
    match s.scanMode with
    | .step => { s with scanState := .waiting }
    | .stopped | .once | .continuous => { s with scanMode := .stopped, scanState := .stopped }

/-- A scan that converted at least one slot ends (08, R146). -/
def endScan (s : State) : State :=
  match s.scanMode with
  | .continuous => beginScan s
  | .step => { s with scanState := .waiting }
  | .stopped | .once => { s with scanMode := .stopped, scanState := .stopped }

/-- The scan goes on after a conversion of slot k, or ends (08, R144). -/
def nextConversion (k : SlotId) (s : State) : State :=
  if h : k.val + 1 < 8 then
    if (s.slot ⟨k.val + 1, h⟩).enabled then { s with scanState := .scanning ⟨k.val + 1, h⟩ } else endScan s
  else endScan s

/-- A step expiry reaching the scanner: it acts in WAITING only (08, R148). -/
def scannerStep (s : State) : State :=
  match s.scanState with
  | .waiting => beginScan s
  | .stopped | .scanning _ => s

/-! ### Results (08, R149 to R153) -/

/-- A slot with a new raw value (08, R149, R150). -/
def Slot.withResult (k : Slot) (raw : Nat) (origin : Origin) : Slot :=
  let tared : Int := (raw : Int) - k.tare
  { k with raw := raw, tared := tared, valid := true, origin := origin, isOver := decide (k.high < tared),
           isUnder := decide (tared < k.low) }

/-- The conditions that a new result makes occur or become true, from the slot before and after it (08, R151, R153). -/
def resultOccurs (before after : Slot) (cond : Condition) : Bool :=
  match cond with
  | .overLimit => after.isOver && !before.isOver
  | .underLimit => after.isUnder && !before.isUnder
  | .slackEdge => before.valid && decide (before.slack ≤ before.tared) && decide (after.tared < before.slack)
  | .rise | .fall | .high | .low => false

/-- A new result changed a level. -/
def levelsChanged (before after : Slot) : Bool :=
  decide (after.isOver ≠ before.isOver) || decide (after.isUnder ≠ before.isUnder)

/-- A new result of a slot, handed to the reflex table at the same event (08, R149 to R153). -/
def newResult (k : SlotId) (raw : Nat) (origin : Origin) (s : State) : State :=
  let before := s.slot k
  let after := before.withResult raw origin
  sourceEvent (.slot k) (resultOccurs before after) (levelsChanged before after)
    (raiseFresh k (s.updSlot k fun _ => after))

/-! ### Requests -/

/-- SET-SLOT (08, R154). -/
def serveSetSlot (slot input enabled : Byte) (tare high low slack : Half) (s : State) : State × Answer :=
  match slotOf slot with
  | none => refuse s .badParameter
  | some k =>
    match slotSettingsOf input enabled tare high low slack (s.slot k) with
    | none => refuse s .badParameter
    | some r => if s.scanState = .stopped then accept (s.updSlot k fun _ => r) else refuse s .scannerRunning

/-- SCAN (08, R147): the mode set, a conversion in flight abandoned, a scan begun or not by the mode. -/
def startScan (mode : ScanMode) (s : State) : State :=
  match mode with
  | .stopped => { s with scanMode := .stopped, scanState := .stopped }
  | .once => beginScan { s with scanMode := .once }
  | .continuous => beginScan { s with scanMode := .continuous }
  | .step => { s with scanMode := .step, scanState := .waiting }

/-- SCAN (08, R147). -/
def serveScan (mode : Byte) (s : State) : State × Answer :=
  match scanModeOf mode with
  | none => refuse s .badParameter
  | some m => accept (startScan m s)

/-- INJECT (08, R155). -/
def serveInject (slot : Byte) (raw : Half) (s : State) : State × Answer :=
  match slotOf slot with
  | none => refuse s .badParameter
  | some k =>
    if s.scanState = .stopped then accept (newResult k (min raw.toNat maxTension) .injected s)
    else refuse s .scannerRunning

/-- SET_SLOT. -/
def execSetSlot (st : Station) (slot input enabled : Byte) (tare high low slack : Half) (s : State) : Out :=
  onRequest st kindSetSlot (serveSetSlot slot input enabled tare high low slack) s

/-- SCAN. -/
def execScan (st : Station) (mode : Byte) (s : State) : Out := onRequest st kindScan (serveScan mode) s

/-- INJECT. -/
def execInject (st : Station) (slot : Byte) (raw : Half) (s : State) : Out :=
  onRequest st kindInject (serveInject slot raw) s

/-- CONVERSION_COMPLETE (08, R145): the converting slot takes the sample as its new result and the scan goes on or ends. With
no conversion in flight the event cannot occur and nothing changes (log entry 4). -/
def execConversionComplete (raw : BitVec 12) (s : State) : Out :=
  .next <|
    match s.scanState with
    | .scanning k => if s.resetAsserted then s else nextConversion k (newResult k raw.toNat .converted s)
    | .stopped | .waiting => s

end Sys2Proof.Machine
end

