-- ==== Sys2Proof/Machine/Ports.lean ====
section
/-! DEFINITION. The station ports (10, sections 10.3, 10.4): the receiver, the request buffer, the taking and decoding of a request,
and the commands UNKNOWN_KIND, BYTE_RECEIVED, GAP and REPLY_SENT. -/

namespace Sys2Proof.Machine

/-- A decoded request handed to its owner (10, R177). No frame decodes to a command that is not a request. -/
def serveRequest (i : Instr) (s : State) : State × Answer :=
  match i with
  | .claim st flight take => serveClaim st flight take s
  | .release st flight => serveRelease st flight s
  | .bind st flight axes => serveBind st flight axes s
  | .unbind st flight => serveUnbind st flight s
  | .configureAxis st axis address lower upper vmax amax window slot =>
    serveConfigureAxis st axis address lower upper vmax amax window slot s
  | .setFlightLimits st flight holdDecel loadMin loadMax => serveSetFlightLimits st flight holdDecel loadMin loadMax s
  | .arm st flight => serveArm st flight s
  | .go st flight => serveGo st flight s
  | .resume st flight => serveResume st flight s
  | .cancel st flight => serveCancel st flight s
  | .park st flight => servePark st flight s
  | .resetFlight st flight => serveResetFlight st flight s
  | .openCue st flight => serveOpenCue st flight s
  | .closeCue st flight => serveCloseCue st flight s
  | .hold st flight => serveHold st flight s
  | .holdAll st => serveHoldAll st s
  | .stop st flight => serveStop st flight s
  | .append st flight tag presence t0 t1 t2 t3 vmax aUp aDn dwell start flags =>
    serveAppend st flight tag presence t0 t1 t2 t3 vmax aUp aDn dwell start flags s
  | .flush st flight => serveFlush st flight s
  | .setLink _ link source condition action target => serveSetLink link source condition action target s
  | .clearLink _ link => serveClearLink link s
  | .setSlot _ slot input enabled tare high low slack => serveSetSlot slot input enabled tare high low slack s
  | .scan _ mode => serveScan mode s
  | .inject _ slot raw => serveInject slot raw s
  | .status st => serveStatus st s
  | .readFlight _ flight => serveReadFlight flight s
  | .readAxis _ axis => serveReadAxis axis s
  | .readSlots st => serveReadSlots st s
  | .readLines st filters => serveReadLines st filters s
  | .resetnAssert | .resetEnd | .unknownKind .. | .byteReceived .. | .gap .. | .replySent .. | .stepExpiry
  | .dwellExpiry .. | .brakeTimeout .. | .silence .. | .sndrPhaseExpiry | .exchangeStart | .heldLine | .writeComplete
  | .readComplete .. | .answerHoldTimeout | .missedExchange | .rawLevelChange .. | .filterAccept .. | .lineSettle ..
  | .conversionComplete .. => refuse s .unknownKind

/-- A frame taken from the buffer: decoded, handed on, its reply started (10, R176, R177). -/
def takeFrame (st : Station) (fr : Frame) (s : State) : State :=
  match decodeRequest st fr.kind fr.body with
  | .unknownKind => takeRequest st fr.kind (fun t => refuse t .unknownKind) s
  | .badLength => takeRequest st fr.kind (fun t => refuse t .badParameter) s
  | .request i => takeRequest st fr.kind (serveRequest i) s

/-- A complete frame whose CRC matches: placed in an empty buffer, and taken at once where the transmitter is IDLE;
discarded with OVERRUN where the buffer is full (10, R174 to R176). -/
def placeFrame (st : Station) (fr : Frame) (s : State) : State :=
  match (s.port st).buffer with
  | some _ => discardFrame st (fun e => { e with overrun := true }) s
  | none =>
    let s1 := markHeard st (s.updPort st fun p => { p with stage := .hunting, assembly := .empty })
    match (s.port st).tx with
    | .idle => takeFrame st fr s1
    | .sending _ => s1.updPort st fun p => { p with buffer := some fr }

/-- A frame complete with its two CRC bytes (10, R174). -/
def completeFrame (st : Station) (asm : Assembly) (s : State) : State :=
  if crc16 (asm.length.getD 0 :: asm.content) = halfAt asm.crc 0 then
    placeFrame st { kind := byteAt asm.content 0, body := asm.content.tail } s
  else discardFrame st (fun e => { e with crc := true }) s

/-- A byte without framing error, by the receiver's stage (10, R174). -/
def receiveByte (st : Station) (b : Byte) (s : State) : State :=
  let p := s.port st
  match p.stage with
  | .hunting => if b = 0xA5 then s.updPort st fun p => { p with stage := .length, assembly := .empty } else s
  | .length =>
    if 1 ≤ b.toNat ∧ b.toNat ≤ 200 then
      s.updPort st fun p => { p with stage := .content, assembly := { p.assembly with length := some b } }
    else discardFrame st (fun e => { e with length := true }) s
  | .content =>
    let content := p.assembly.content ++ [b]
    s.updPort st fun p =>
      { p with assembly := { p.assembly with content := content }
               stage := if (p.assembly.length.getD 0).toNat ≤ content.length then .check else .content }
  | .check =>
    let asm := { p.assembly with crc := p.assembly.crc ++ [b] }
    if asm.crc.length < 2 then s.updPort st fun p => { p with assembly := asm } else completeFrame st asm s

/-- A byte on a port (10, R174, R175). -/
def byteArrives (st : Station) (b : Byte) (stopOk : Bool) (s : State) : State :=
  if stopOk then receiveByte st b s else discardFrame st (fun e => { e with framing := true }) s

/-- The end of a reply: the transmitter IDLE and a buffered request taken (10, R176). -/
def replyEnds (st : Station) (s : State) : State :=
  match (s.port st).buffer with
  | none => s.updPort st fun p => { p with tx := .idle }
  | some fr => takeFrame st fr (s.updPort st fun p => { p with tx := .idle, buffer := none })

/-- UNKNOWN_KIND: a request of this KIND is taken and answered UNKNOWN_KIND (10, R177). A KIND of the catalogue is no such
event, and nothing changes (log entry 4). -/
def execUnknownKind (st : Station) (kind : Byte) (s : State) : Out :=
  if isRequestKind kind then .next s else onRequest st kind (fun t => refuse t .unknownKind) s

/-- BYTE_RECEIVED; ignored while RESETN is asserted (10, R172). -/
def execByteReceived (st : Station) (byte : Byte) (stopOk : Bool) (s : State) : Out :=
  .next (if s.resetAsserted then s else byteArrives st byte stopOk s)

/-- GAP: the frame in assembly is discarded (10, R175). With no frame in assembly the event cannot occur and nothing changes
(log entry 4). -/
def execGap (st : Station) (s : State) : Out :=
  .next (if s.resetAsserted || decide ((s.port st).stage = .hunting) then s
    else discardFrame st (fun e => { e with gap := true }) s)

/-- REPLY_SENT (10, R176). With the transmitter IDLE the event cannot occur and nothing changes (log entry 4). -/
def execReplySent (st : Station) (s : State) : Out :=
  .next (if s.resetAsserted || decide ((s.port st).tx = .idle) then s else replyEnds st s)

end Sys2Proof.Machine
end

