-- ==== Sys2Proof/Machine/Reset.lean ====
section
/-! DEFINITION. The reset of the part (10, R172; 07, R124; 03, R42): RESETN_ASSERT and RESET_END. -/

namespace Sys2Proof.Machine

/-- The part while RESETN is asserted: every record at its reset value, the step timer stopped. The levels at the sense-line
pins are outside the part and stay (09, R158); the model's own fields stay. -/
def assertReset (s : State) : State :=
  { State.reset with
    lines := s.lines.map fun l => SenseLine.reset l.raw
    timerRunning := false
    resetAsserted := true
    freeIndex := s.freeIndex
    pending := s.pending }

/-- The end of reset: the step timer starts and the line filters run; a line with its filter off would settle at once (03, R42;
09, R158). -/
def releaseReset (s : State) : State :=
  let s1 := { s with timerRunning := true, resetAsserted := false }
  takeInAnyOrder (allLines.filter fun n => !(s.line n).filterOn && decide ((s.line n).filtered = none)) settleLine s1

/-- RESETN_ASSERT. -/
def execResetnAssert (s : State) : Out := .next (assertReset s)

/-- RESET_END; without RESETN asserted the event cannot occur and nothing changes (log entry 4). -/
def execResetEnd (s : State) : Out := .next (if s.resetAsserted then releaseReset s else s)

end Sys2Proof.Machine
end

