-- ==== Sys2Proof/Machine/Steps.lean ====
section
/-! DEFINITION. The step expiry (03, R42 to R44) and the events that fall at one: STEP_EXPIRY, DWELL_EXPIRY, BRAKE_TIMEOUT, SILENCE
and SNDR_PHASE_EXPIRY. STEP_EXPIRY carries all that the manual has happen at an expiry; each of the other four is one of those
happenings alone, where it is due at the next expiry (log entry 5). -/

namespace Sys2Proof.Machine

/-! ### The sounder's phases (09, R170) -/

/-- One step expiry counted in a PULSED phase. -/
def Sounder.tick : Sounder → Sounder
  | .off => .off
  | .steady => .steady
  | .pulsed sounding count => if phaseSteps ≤ count + 1 then .pulsed (!sounding) 0 else .pulsed sounding (count + 1)

/-! ### Silence (06, R117, R118) -/

/-- A station whose counter this expiry brings to 250. -/
def turnsSilent (s : State) (st : Station) : Bool :=
  !s.silents.get st && decide (silenceSteps ≤ (s.port st).silence + 1)

/-- The silence counter of an ACTIVE station at an expiry; a SILENT station's counter is not changed. -/
def countSilence (st : Station) (s : State) : State :=
  if s.silents.get st then s
  else if turnsSilent s st then (s.updPort st fun p => { p with silence := silenceSteps }).setSilent st true
  else s.updPort st fun p => { p with silence := p.silence + 1 }

/-! ### One flight at an expiry -/

/-- The path generator's work for a flight, and the hold or abort of its claimer's silence at this same expiry in either
order with it (03, R62; 06, R118, R120; log entry 7). -/
def flightExpiry (late : Station → Bool) (f : FlightId) (s : State) : State :=
  if (s.flight f).claim.any late then
    takeInAnyOrder [true, false] (fun path t => if path then pathStep f t else restrainFlight f .stationSilent t) s
  else pathStep f s

/-- Everything that happens at one step expiry (03, R42). -/
def stepAll (s : State) : State :=
  let late := turnsSilent s
  let s1 := { s with stepCounter := s.stepCounter + 1, sounder := s.sounder.tick }
  let s2 := allStations.foldl (fun t st => countSilence st t) s1
  let s3 := allFlights.foldl (fun t f => flightExpiry late f t) s2
  scannerStep (roundStep s3)

/-! ### The commands -/

/-- STEP_EXPIRY; the step timer stands stopped while RESETN is asserted (03, R42). -/
def execStepExpiry (s : State) : Out := .next (if s.timerRunning then stepAll s else s)

/-- DWELL_EXPIRY: a dwell remaining that the expiry brings to 0 (02, R38). -/
def execDwellExpiry (f : FlightId) (s : State) : Out :=
  .next <|
    match (s.flight f).state, (s.flight f).dwell with
    | .dwell, some d => if s.timerRunning && decide (d ≤ 1) then endDwell f s else s
    | _, _ => s

/-- BRAKE_TIMEOUT: an arming timer that the expiry brings to 0 with a member still RELEASING (01, R15). -/
def execBrakeTimeout (f : FlightId) (s : State) : Out :=
  .next <|
    match (s.flight f).state, (s.flight f).armTimer, firstReleasing f s with
    | .arming, some t, some n => if s.timerRunning && decide (t ≤ 1) then tripFlight f (.brakeTimeout n) s else s
    | _, _, _ => s

/-- SILENCE: a silence counter that the expiry brings to 250 (06, R117, R118). -/
def execSilence (st : Station) (s : State) : Out :=
  .next (if s.timerRunning && turnsSilent s st then restrainClaimed st .stationSilent (countSilence st s) else s)

/-- SNDR_PHASE_EXPIRY: the 125th step expiry of a PULSED phase (09, R170). -/
def execSndrPhaseExpiry (s : State) : Out :=
  .next <|
    match s.sounder with
    | .pulsed sounding count =>
      if s.timerRunning && decide (phaseSteps ≤ count + 1) then { s with sounder := .pulsed (!sounding) 0 } else s
    | .off | .steady => s

end Sys2Proof.Machine
end

