-- ==== Sys2Proof/Machine/Supervision.lean ====
section
/-! DEFINITION. Supervision (04): what a completed read stores, the checks made of it, the trips it meets, and the command
READ_COMPLETE. -/

namespace Sys2Proof.Machine

/-! ### What a read shows (04, sections 4.3, 4.4) -/

/-- FAULT in a status byte (07, section 7.2). -/
def statusFault (b : Byte) : Bool := b.getLsbD 6
/-- BRAKE_OPEN in a status byte (07, section 7.2). -/
def statusBrakeOpen (b : Byte) : Bool := b.getLsbD 5

/-- The measured position lies outside the soft limits widened by the following window (04, R74). -/
def overtravels (p : AxisParams) (pos : Int) : Bool :=
  decide (pos < p.lower - p.window) || decide (p.upper + p.window < pos)

/-- The measured position is further from the last write's set-point than the following window; not judged without a last
write (04, R75). -/
def lagsBehind (p : AxisParams) (last : Option LastWrite) (pos : Int) : Bool :=
  last.any fun w => decide (p.window < (pos - w.setPoint).natAbs)

/-- The overtravel check, and the following check where it is made (04, R70 steps 3 and 4). -/
def releasedVerdict (a : Axis) (pos : Int) (following : Bool) : Option FaultCause :=
  match a.params with
  | none => none
  | some p =>
    if overtravels p pos then some .overtravel
    else if following && lagsBehind p a.lastWrite pos then some .followingError
    else none

/-! ### The trip that a faulting read meets (04, R78) -/

/-- The state that an outcome leaves. -/
def stateAfter (s : State) : Out → State
  | .next t => t
  | .fault _ | .refused _ => s

/-- What the command right behind the present one makes of a state, where it is one that can trip a flight with no exchange in
progress: a link acting, a STOP, an arming timer running out, a miss of the exchange that is due, or a byte or a reply's end that
takes such a request. -/
def commandBehind (s : State) : State :=
  match s.pending with
  | [] => s
  | c :: rest =>
    let t := { s with pending := rest }
    match c with
    | .stop st flight => stateAfter t (execStop st flight t)
    | .setLink st link source condition action target => stateAfter t (execSetLink st link source condition action target t)
    | .inject st slot raw => stateAfter t (execInject st slot raw t)
    | .readLines st filters => stateAfter t (execReadLines st filters t)
    | .byteReceived st byte stopOk => stateAfter t (execByteReceived st byte stopOk t)
    | .replySent st => stateAfter t (execReplySent st t)
    | .stepExpiry => stateAfter t (execStepExpiry t)
    | .brakeTimeout f => stateAfter t (execBrakeTimeout f t)
    | .heldLine => stateAfter t (execHeldLine t)
    | .rawLevelChange line level => stateAfter t (execRawLevelChange line level t)
    | .filterAccept line => stateAfter t (execFilterAccept line t)
    | .lineSettle line => stateAfter t (execLineSettle line t)
    | .conversionComplete raw => stateAfter t (execConversionComplete raw t)
    | .resetnAssert | .resetEnd | .claim .. | .release .. | .bind .. | .unbind .. | .configureAxis .. | .setFlightLimits ..
    | .arm .. | .go .. | .resume .. | .cancel .. | .park .. | .resetFlight .. | .openCue .. | .closeCue .. | .hold .. | .holdAll ..
    | .append .. | .flush .. | .clearLink .. | .setSlot .. | .scan .. | .status .. | .readFlight .. | .readAxis .. | .readSlots ..
    | .unknownKind .. | .gap .. | .dwellExpiry .. | .silence .. | .sndrPhaseExpiry | .exchangeStart | .writeComplete
    | .readComplete .. | .answerHoldTimeout | .missedExchange => t

/-- The trip cause with which the command right behind would take a flight to TRIPPED. -/
def tripBehind (f : FlightId) (s : State) : Option TripCause :=
  let t := commandBehind s
  if (s.flight f).state ≠ .tripped ∧ (t.flight f).state = .tripped then (t.flight f).tripCause else none

/-- What a faulting read does before its trip request reaches the flight: the axis FAULTED, its turn passed on. -/
def faultWaiting (x : Turn) (cause : FaultCause) (s : State) : State :=
  passTurn x (putAxis x.axis (fun a => { a with state := .faulted, faultCause := some cause }) s)

/-- The state that the trip request of a faulting read meets. DESIGN CHOICE: where the read faults a RELEASING or FOLLOWING member
and the command right behind it trips the member's flight, a free value says whether that trip meets the flight first, as 04, R78
gives, or the read's own, as 04, R69 and R76 give (log entry 27). -/
def meetTrip (x : Turn) (cause : FaultCause) (s : State) : State :=
  match (s.axis x.axis).flight with
  | none => s
  | some f =>
    if (s.axis x.axis).released then
      match tripBehind f (faultWaiting x cause s) with
      | none => s
      | some other =>
        let s1 := { s with freeIndex := s.freeIndex + 1 }
        if Config.tripMeetsFirst s.freeIndex then tripFlight f other s1 else s1
    else s

/-- A check that fails at a read raises an axis fault (04, R76), which may meet another trip (04, R78). -/
def faultAtRead (x : Turn) (cause : FaultCause) (s : State) : State := faultAxis x.axis cause (meetTrip x cause s)

/-! ### The checks of a completed read (04, sections 4.3 to 4.5) -/

/-- A check's verdict raised, or what follows where it passed. -/
def judge (x : Turn) (verdict : Option FaultCause) (s : State) (passed : State → State) : State :=
  match verdict with
  | some cause => faultAtRead x cause s
  | none => passed s

/-- The read that leaves no member of an ARMING flight RELEASING takes it to READY (01, R14). -/
def confirmArming (n : AxisId) (s : State) : State :=
  match (s.axis n).flight with
  | none => s
  | some f =>
    if (s.flight f).state = .arming ∧
        (s.flight f).members.all (fun m => decide ((s.axis m).state ≠ .releasing)) = true then
      putFlightState f .ready (s.updFlight f fun r => { r with armTimer := none })
    else s

/-- The BRAKED axes whose set-point follows the measured position: unbound, or of a FREE or PARKED flight (04, R67,
R68). -/
def tracks (s : State) (n : AxisId) : Bool :=
  match (s.axis n).flight with
  | none => true
  | some f => decide ((s.flight f).state = .free) || decide ((s.flight f).state = .parked)

/-- A BRAKED axis that reports BRAKE_OPEN is accepted only where its last write carried the brake-release bit set (04, R72). -/
def brakeMismatched (a : Axis) (status : Byte) : Bool := statusBrakeOpen status && !a.lastWrite.any (·.release)

/-- The checks of a completed read, in their order, by the state the axis is in (04, R70 to R77). -/
def supervise (x : Turn) (pos : Int) (status : Byte) (s : State) : State :=
  let a := s.axis x.axis
  match a.state with
  | .unconfigured | .faulted => s
  | .braked =>
    if statusFault status then faultAtRead x .driveFault s
    else if brakeMismatched a status then faultAtRead x .brakeMismatch s
    else if tracks s x.axis then s.updAxis x.axis fun a => { a with setPoint := pos }
    else s
  | .releasing =>
    if statusFault status then faultAtRead x .driveFault s
    else if statusBrakeOpen status then
      judge x (releasedVerdict a pos true) (putAxis x.axis (fun a => { a with state := .following }) s) (confirmArming x.axis)
    else judge x (releasedVerdict a pos false) s id
  | .following =>
    if statusFault status then faultAtRead x .driveFault s
    else if statusBrakeOpen status then judge x (releasedVerdict a pos true) s id
    else faultAtRead x .brakeMismatch s

/-! ### The command -/

/-- The measurement of a completed read stored, the missed streak cleared (07, R130; 04, R69). -/
def storeRead (n : AxisId) (pos : Int) (status : Byte) (s : State) : State :=
  s.updAxis n fun a => { a with missedStreak := 0, measured := some pos, driveStatus := some status }

/-- The six bytes of a read received (07, R126, R130). -/
def readArrives (x : Exchange) (position : Word) (status check : Byte) (s : State) : State :=
  if check = checkByte (wordBytes position ++ [status]) then
    passTurn x.turn
      (if x.discarded then s else supervise x.turn position.toInt status (storeRead x.axis position.toInt status s))
  else missExchange x s

/-- READ_COMPLETE (07, R130). -/
def execReadComplete (position : Word) (status check : Byte) (s : State) : Out :=
  .next <|
    match s.exchange with
    | some x => if s.resetAsserted = false ∧ x.kind = .read then readArrives x position status check s else s
    | none => s

end Sys2Proof.Machine
end

