-- ==== Sys2Proof/Machine/Dispatch.lean ====
section
/-! DEFINITION. The meaning of every command: one arm per constructor of Instr. -/

namespace Sys2Proof.Machine

def exec (i : Instr) (s : State) : Host.Outcome State Fault Refusal :=
  match i with
  | .resetnAssert => Sys2Proof.Machine.execResetnAssert s
  | .resetEnd => Sys2Proof.Machine.execResetEnd s
  | .claim st flight take => Sys2Proof.Machine.execClaim st flight take s
  | .release st flight => Sys2Proof.Machine.execRelease st flight s
  | .bind st flight axes => Sys2Proof.Machine.execBind st flight axes s
  | .unbind st flight => Sys2Proof.Machine.execUnbind st flight s
  | .configureAxis st axis address lower upper vmax amax window slot => Sys2Proof.Machine.execConfigureAxis st axis address lower upper vmax amax window slot s
  | .setFlightLimits st flight holdDecel loadMin loadMax => Sys2Proof.Machine.execSetFlightLimits st flight holdDecel loadMin loadMax s
  | .arm st flight => Sys2Proof.Machine.execArm st flight s
  | .go st flight => Sys2Proof.Machine.execGo st flight s
  | .resume st flight => Sys2Proof.Machine.execResume st flight s
  | .cancel st flight => Sys2Proof.Machine.execCancel st flight s
  | .park st flight => Sys2Proof.Machine.execPark st flight s
  | .resetFlight st flight => Sys2Proof.Machine.execResetFlight st flight s
  | .openCue st flight => Sys2Proof.Machine.execOpenCue st flight s
  | .closeCue st flight => Sys2Proof.Machine.execCloseCue st flight s
  | .hold st flight => Sys2Proof.Machine.execHold st flight s
  | .holdAll st => Sys2Proof.Machine.execHoldAll st s
  | .stop st flight => Sys2Proof.Machine.execStop st flight s
  | .append st flight tag presence t0 t1 t2 t3 vmax aUp aDn dwell start flags => Sys2Proof.Machine.execAppend st flight tag presence t0 t1 t2 t3 vmax aUp aDn dwell start flags s
  | .flush st flight => Sys2Proof.Machine.execFlush st flight s
  | .setLink st link source condition action target => Sys2Proof.Machine.execSetLink st link source condition action target s
  | .clearLink st link => Sys2Proof.Machine.execClearLink st link s
  | .setSlot st slot input enabled tare high low slack => Sys2Proof.Machine.execSetSlot st slot input enabled tare high low slack s
  | .scan st mode => Sys2Proof.Machine.execScan st mode s
  | .inject st slot raw => Sys2Proof.Machine.execInject st slot raw s
  | .status st => Sys2Proof.Machine.execStatus st s
  | .readFlight st flight => Sys2Proof.Machine.execReadFlight st flight s
  | .readAxis st axis => Sys2Proof.Machine.execReadAxis st axis s
  | .readSlots st => Sys2Proof.Machine.execReadSlots st s
  | .readLines st filters => Sys2Proof.Machine.execReadLines st filters s
  | .unknownKind st kind => Sys2Proof.Machine.execUnknownKind st kind s
  | .byteReceived st byte stopOk => Sys2Proof.Machine.execByteReceived st byte stopOk s
  | .gap st => Sys2Proof.Machine.execGap st s
  | .replySent st => Sys2Proof.Machine.execReplySent st s
  | .stepExpiry => Sys2Proof.Machine.execStepExpiry s
  | .dwellExpiry f => Sys2Proof.Machine.execDwellExpiry f s
  | .brakeTimeout f => Sys2Proof.Machine.execBrakeTimeout f s
  | .silence st => Sys2Proof.Machine.execSilence st s
  | .sndrPhaseExpiry => Sys2Proof.Machine.execSndrPhaseExpiry s
  | .exchangeStart => Sys2Proof.Machine.execExchangeStart s
  | .heldLine => Sys2Proof.Machine.execHeldLine s
  | .writeComplete => Sys2Proof.Machine.execWriteComplete s
  | .readComplete position status check => Sys2Proof.Machine.execReadComplete position status check s
  | .answerHoldTimeout => Sys2Proof.Machine.execAnswerHoldTimeout s
  | .missedExchange => Sys2Proof.Machine.execMissedExchange s
  | .rawLevelChange line level => Sys2Proof.Machine.execRawLevelChange line level s
  | .filterAccept line => Sys2Proof.Machine.execFilterAccept line s
  | .lineSettle line => Sys2Proof.Machine.execLineSettle line s
  | .conversionComplete raw => Sys2Proof.Machine.execConversionComplete raw s

end Sys2Proof.Machine
end

