-- ==== Sys2Proof/Safety.lean ====
section
/-! DEFINITION. What counts as a sound state of the block (the invariants the manual states about the whole part), and the words
in which statements say what a command leaves alone. -/

namespace Sys2Proof.Machine

/-! ### Words for statements -/

/-- A byte of a request is a flight's number. -/
def NamesFlight (b : Byte) (f : FlightId) : Prop := b.toNat = f.val

/-- A request answered with a result code and no data: nothing but its port's transmitter changes (10, R178). -/
def reply (st : Station) (kind : Byte) (code : ResultCode) (s : State) : State :=
  startReply st kind { code := code, data := [] } s

/-- A request received in a valid frame, taken and answered, with no effect but that its station is heard (06, R117, R119; 10,
R178). -/
def answer (st : Station) (kind : Byte) (code : ResultCode) (s : State) : State := reply st kind code (markHeard st s)

/-- Every other flight's record is as it was. -/
def OtherFlightsKept (f : FlightId) (s t : State) : Prop := ∀ g, g ≠ f → t.flight g = s.flight g

/-- Every part but the flight records, the axis records, the ports and the output lines is as it was. -/
def OnlyMotionChanged (s t : State) : Prop :=
  t = { s with flights := t.flights, axes := t.axes, ports := t.ports, brakes := t.brakes, sounder := t.sounder,
               faultLine := t.faultLine }

/-- The output lines as they stand after a change of state from s to t (09, R169 to R171). -/
def OutputsDriven (s t : State) : Prop :=
  (∀ n, t.brake n = (t.axis n).released) ∧ t.sounder = nextSounder t.anyTripped t.anySteady s.sounder ∧
    t.faultLine = (t.anyTripped || t.anyFaulted)

/-- The output lines are as they were. -/
def OutputsKept (s t : State) : Prop := t.brakes = s.brakes ∧ t.sounder = s.sounder ∧ t.faultLine = s.faultLine

/-- The states of a flight whose brakes may be released (09, R169; 06, R106). -/
def FlightState.flies (x : FlightState) : Prop :=
  x = .arming ∨ x = .ready ∨ x = .moving ∨ x = .dwell ∨ x = .stopping ∨ x = .held

/-- The record of a member after its flight's brakes are applied (01, R11). -/
def Axis.brakedDown (a : Axis) : Axis := if a.released then { a with state := .braked } else a

/-- Commands run one after the other, as a queue of them runs. -/
def execAll : List Instr → State → Out
  | [], s => .next s
  | c :: cs, s =>
    match exec c s with
    | .next t => execAll cs t
    | .fault r => .fault r
    | .refused r => .refused r

/-! ### What the tables of the manual make of one record -/

/-- What a trip makes of its flight's record (05, R95, R97). -/
def Flight.afterTrip (r : Flight) (cause : TripCause) : Flight :=
  match r.state with
  | .free => r
  | .tripped => { r with furtherTrips := true }
  | .parked | .arming | .ready | .moving | .dwell | .stopping | .held =>
    { r with state := .tripped, dwell := none, armTimer := none, tripCause := some cause }

/-- A trip request changes its flight's state. -/
def FlightState.trips (x : FlightState) : Bool := decide (x ≠ .free) && decide (x ≠ .tripped)

/-- What a hold makes of its flight's record (05, R85, R86; 03, R57). -/
def Flight.afterHold (r : Flight) (cause : HoldCause) : Flight :=
  match r.state with
  | .free | .parked | .arming | .ready | .tripped => r
  | .moving =>
    { r with state := .stopping, holdCause := some cause,
             active := r.active.map fun a => { a with aStop := some a.stopRate } }
  | .dwell => { r with state := .held, holdCause := some cause }
  | .stopping | .held => { r with holdCause := some cause }

/-- What an arming abort makes of its flight's record (01, R16). -/
def Flight.afterAbort (r : Flight) (cause : HoldCause) : Flight :=
  if r.state = .arming then { r with state := .parked, armTimer := none, holdCause := some cause } else r

/-- What an enable loss or a silence makes of a claimed flight's record (06, R115, R118). -/
def Flight.afterRestraint (r : Flight) (cause : HoldCause) : Flight :=
  if r.state = .arming then r.afterAbort cause else r.afterHold cause

/-- A trip or a restraint changes the state of its flight, so STATE is raised for it (01, R10). -/
def Flight.restraintMoves (r : Flight) : Bool :=
  match r.state with
  | .arming | .moving | .dwell => true
  | .free | .parked | .ready | .stopping | .held | .tripped => false

/-- A port on which STATE is raised for the flights satisfying a test. -/
def Port.stateRaised (p : Port) (moved : FlightId → Bool) : Port :=
  { p with flightNotices := mapAt p.flightNotices fun f x => if moved f then { x with state := true } else x }

/-- From s to t: the flights that the station claims are aborted or held with this cause, each by its own state, and nothing
else happens but the brakes of the aborted flights and the STATE notices (06, R115, R118). -/
structure RestrainedBy (st : Station) (cause : HoldCause) (s t : State) : Prop where
  flights : ∀ f, t.flight f =
    if (s.flight f).claim = some st then (s.flight f).afterRestraint cause else s.flight f
  aborted : ∀ n, (∃ f, (s.flight f).claim = some st ∧ (s.flight f).state = .arming ∧ n ∈ (s.flight f).members) →
    t.axis n = (s.axis n).brakedDown
  axes : ∀ n, (¬∃ f, (s.flight f).claim = some st ∧ (s.flight f).state = .arming ∧ n ∈ (s.flight f).members) →
    t.axis n = s.axis n
  ports : ∀ u, t.port u = (s.port u).stateRaised fun f =>
    decide ((s.flight f).claim = some st) && (s.flight f).restraintMoves
  rest : OnlyMotionChanged s t

/-- No member of the flight is a member of another. -/
def MembersUnshared (f : FlightId) (s : State) : Prop :=
  ∀ n ∈ (s.flight f).members, ∀ g, g ≠ f → n ∉ (s.flight g).members

/-- The waiting queue behind a completion, with the recycled copy at its tail where there is room (02, R37). -/
def recycledQueue (act : Active) (queue : List Segment) : List Segment :=
  if act.seg.recycle = true ∧ queue.length < 8 then queue ++ [act.seg] else queue

/-- The cue gate behind a completion (02, R36). -/
def gateBehind (act : Active) (gate : CueGate) : CueGate :=
  if act.byCue = true ∧ act.seg.recycle = false then .closed else gate

/-- The turn of the round passed on from one exchange, over the axis states of s (07, R136, R138). -/
structure TurnPassed (x : Turn) (s t : State) : Prop where
  ended : t.exchange = none
  afterWrite : x.kind = .write →
    t.turn = some { axis := x.axis, kind := .read } ∧ t.round = s.round ∧ t.roundPending = s.roundPending
  nextAxis : x.kind = .read → ∀ m, x.axis < m → (s.axis m).state ≠ .unconfigured →
    (∀ k, x.axis < k → k < m → (s.axis k).state = .unconfigured) →
    t.turn = some { axis := m, kind := .write } ∧ t.round = s.round ∧ t.roundPending = s.roundPending
  lastAxis : x.kind = .read → (∀ m, x.axis < m → (s.axis m).state = .unconfigured) → s.roundPending = false →
    t.turn = none ∧ t.round = .idle ∧ t.roundPending = false
  foldedRound : x.kind = .read → (∀ m, x.axis < m → (s.axis m).state = .unconfigured) → s.roundPending = true →
    ∀ m, (s.axis m).state ≠ .unconfigured → (∀ k, k < m → (s.axis k).state = .unconfigured) →
    t.turn = some { axis := m, kind := .write } ∧ t.round = .running ∧ t.roundPending = false

/-- A level condition of a link is true, as the line's filtered level or the slot's levels have it (09, R166). -/
def Link.ConditionTrue (l : Link) (s : State) : Prop :=
  (∃ n, l.source = .line n ∧
    (l.cond = .high ∧ (s.line n).filtered = some .high ∨ l.cond = .low ∧ (s.line n).filtered = some .low)) ∨
  ∃ k, l.source = .slot k ∧
    (l.cond = .overLimit ∧ (s.slot k).isOver = true ∨ l.cond = .underLimit ∧ (s.slot k).isUnder = true)

/-- A station's enable as its links give it: it has an ENABLE_STATION link in use, and the condition of each is true (06, R113). -/
def EnableHolds (u : Station) (s : State) : Prop :=
  (∃ i l, s.link i = some l ∧ l.action = .enableStation u) ∧
    ∀ i l, s.link i = some l → l.action = .enableStation u → l.ConditionTrue s

/-- From s to t: a station's enable computed again over the links of s; a change from true to false restrains the flights that the
station claims, and nothing else happens (06, R113 to R115). -/
structure EnableComputed (u : Station) (s t : State) : Prop where
  value : t.enables.get u = true ↔ EnableHolds u s
  others : ∀ w, w ≠ u → t.enables.get w = s.enables.get w
  links : t.links = s.links
  lost : s.enables.get u = true → t.enables.get u = false → RestrainedBy u .enableLost (s.setEnable u false) t
  kept : s.enables.get u = false ∨ t.enables.get u = true → t = s.setEnable u (t.enables.get u)

/-- A link holds or trips a flight (09, R167). -/
def Link.Targets (l : Link) (f : FlightId) : Prop :=
  l.action = .holdFlight f ∨ l.action = .holdAll ∨ l.action = .tripFlight f ∨ l.action = .tripAll

/-- From s to t: a hold request to each of FL0 to FL5 (05, R84, R85). -/
structure EveryFlightHeld (cause : HoldCause) (s t : State) : Prop where
  flights : ∀ f, t.flight f = (s.flight f).afterHold cause
  axes : t.axes = s.axes
  ports : ∀ u, t.port u = (s.port u).stateRaised fun f => decide ((s.flight f).state = .moving ∨ (s.flight f).state = .dwell)
  outputs : if ∃ f, (s.flight f).state = .moving ∨ (s.flight f).state = .dwell then OutputsDriven s t else OutputsKept s t
  rest : OnlyMotionChanged { s with freeIndex := t.freeIndex } t

/-- From s to t: a trip request to each of FL0 to FL5 (05, R93, R95, R97). -/
structure EveryFlightTripped (cause : TripCause) (s t : State) : Prop where
  flights : ∀ f, t.flight f = (s.flight f).afterTrip cause
  braked : ∀ n, (∃ f, (s.flight f).state.trips = true ∧ n ∈ (s.flight f).members) → t.axis n = (s.axis n).brakedDown
  axes : ∀ n, (¬∃ f, (s.flight f).state.trips = true ∧ n ∈ (s.flight f).members) → t.axis n = s.axis n
  ports : ∀ u, t.port u = (s.port u).stateRaised fun f => (s.flight f).state.trips
  outputs : if ∃ f, (s.flight f).state.trips = true then OutputsDriven s t else OutputsKept s t
  rest : OnlyMotionChanged { s with freeIndex := t.freeIndex } t

/-- From s to t: the link in this entry acts once, by its action (09, R165, R166). -/
def Link.Acted (l : Link) (i : LinkId) (s t : State) : Prop :=
  match l.action with
  | .holdFlight f => t = holdFlight f (.linkHold i) s
  | .holdAll => EveryFlightHeld (.holdAllLink i) s t
  | .tripFlight f => t = tripFlight f (.linkTrip i) s
  | .tripAll => EveryFlightTripped (.linkTrip i) s t
  | .cueFlight f => t = cueFlight f s
  | .enableStation _ => t = s

/-- From s to t: an event of the link's source at which its condition occurs or not, and nothing else acts. -/
def Link.MetEvent (l : Link) (i : LinkId) (occurs : Prop) (s t : State) : Prop :=
  (occurs → l.Acted i s t) ∧ (¬occurs → t = s)

/-- A condition that an accepted change of its line to a level makes occur or become true (09, R159, R165, R166). -/
def Condition.OnChange (cond : Condition) (level : Level) : Prop :=
  level = .high ∧ (cond = .rise ∨ cond = .high) ∨ level = .low ∧ (cond = .fall ∨ cond = .low)

/-- A condition that the first settling of its line at a level makes true (09, R158, R166). -/
def Condition.OnSettling (cond : Condition) (level : Level) : Prop :=
  level = .high ∧ cond = .high ∨ level = .low ∧ cond = .low

/-- A condition that a new result of its slot makes occur or become true (08, R150, R151; 09, R165, R166). -/
def Condition.OnResult (cond : Condition) (before after : Slot) : Prop :=
  cond = .overLimit ∧ before.isOver = false ∧ after.isOver = true ∨
  cond = .underLimit ∧ before.isUnder = false ∧ after.isUnder = true ∨
  cond = .slackEdge ∧ before.valid = true ∧ before.slack ≤ before.tared ∧ after.tared < before.slack

/-- The link holds or trips flights, or sends a cue: it is no ENABLE_STATION link. -/
def Link.Requests (l : Link) : Prop := ∀ u, l.action ≠ .enableStation u

/-- No in-use link has this source. -/
def NoLinkOn (src : Source) (s : State) : Prop := ∀ i l, s.link i = some l → l.source ≠ src

/-- The link in this entry is in use, and no other in-use link has its source. -/
def SoleLink (i : LinkId) (l : Link) (s : State) : Prop :=
  s.link i = some l ∧ ∀ j m, j ≠ i → s.link j = some m → m.source ≠ l.source

/-- Every present target of a record lies within the soft limits of the member of its slot, both inclusive (02, R31). -/
def TargetsFit (s : State) (f : FlightId) (seg : Segment) : Prop :=
  ∀ i n x, (s.flight f).members[i]? = some n → seg.target i = some x →
    ∃ p, (s.axis n).params = some p ∧ p.lower ≤ x ∧ x ≤ p.upper

/-- Every member whose axis names a tension slot passes the load check (02, R32). -/
def LoadsFit (s : State) (f : FlightId) : Prop :=
  ∀ n ∈ (s.flight f).members, ∀ p k, (s.axis n).params = some p → p.slot = some k →
    (s.slot k).valid = true ∧ (s.flight f).loadMin ≤ (s.slot k).tared ∧ (s.slot k).tared ≤ (s.flight f).loadMax

/-- A step expiry at s, which leaves t, makes of the record of a MOVING flight the record r: its advance, or its completion into
DWELL or on by the follow decision (03, R53 to R56; 02, R33, R35 to R37, R39). -/
def MovedRecord (f : FlightId) (act : Active) (s t : State) (r : Flight) : Prop :=
  let v := if act.pos = act.pathLen then 0 else movingSpeed act (act.pathLen - act.pos)
  let next : Active := { act with pos := act.pos + v, speed := v }
  let queue := recycledQueue act (s.flight f).queue
  let ended : Flight := { s.flight f with active := none, queue := queue, cueGate := gateBehind act (s.flight f).cueGate }
  (next.pos ≠ act.pathLen → r = { s.flight f with active := some next }) ∧
  (next.pos = act.pathLen →
    (act.seg.dwell ≠ 0 → r = { ended with state := .dwell, dwell := some act.seg.dwell }) ∧
    (act.seg.dwell = 0 → (∀ seg, queue.head? = some seg → seg.start ≠ .follow) → r = { ended with state := .ready }) ∧
    (act.seg.dwell = 0 → ∀ seg rest, queue = seg :: rest → seg.start = .follow →
      let passes := TargetsFit s f seg ∧ (seg.loadCheck = true → LoadsFit s f)
      (passes → MembersUnshared f s → r = { ended with
        state := .moving, queue := rest, queueLow := if rest = [] then true else (s.flight f).queueLow
        active := some (activeOf ((s.flight f).members.map t.axis) (s.flight f).holdDecel seg false) }) ∧
      (¬passes → r = { ended with state := .ready, queue := rest })))

/-- What a step expiry makes of the record of a STOPPING flight: the landing in HELD, at the end of its path with the completion's
effects, or the advance (03, R58, R59; 05, R88). -/
def Flight.afterStop (r : Flight) (act : Active) (aStop : Nat) : Flight :=
  let v := act.speed - aStop
  let next : Active := { act with pos := act.pos + v, speed := v }
  if next.pos = act.pathLen then
    { r with state := .held, active := none, dwell := if act.seg.dwell = 0 then r.dwell else some act.seg.dwell
             queue := recycledQueue act r.queue, cueGate := gateBehind act r.cueGate }
  else if v = 0 then { r with state := .held, active := some { next with aStop := none } }
  else { r with active := some next }

/-- A dwell that runs out at s makes of its flight's record the record r, by the follow decision (02, R33, R38, R39). -/
def DwellEnded (f : FlightId) (s : State) (r : Flight) : Prop :=
  ((∀ seg rest, (s.flight f).queue = seg :: rest → seg.start ≠ .follow) →
    r = { s.flight f with state := .ready, dwell := none }) ∧
  ∀ seg rest, (s.flight f).queue = seg :: rest → seg.start = .follow →
    let passes := TargetsFit s f seg ∧ (seg.loadCheck = true → LoadsFit s f)
    (passes → r =
      { s.flight f with
          state := .moving, dwell := none, queue := rest
          queueLow := if rest = [] then true else (s.flight f).queueLow
          active := some (activeOf ((s.flight f).members.map s.axis) (s.flight f).holdDecel seg false) }) ∧
    (¬passes → r = { s.flight f with state := .ready, dwell := none, queue := rest })

/-- What a completed read finds wrong with an axis, by the state it is in: the checks of 04, R70 to R75 in their order. -/
def readVerdict (a : Axis) (p : AxisParams) (pos : Int) (fault brakeOpen : Bool) : Option FaultCause :=
  let beyond := pos < p.lower - p.window ∨ p.upper + p.window < pos
  let behind := ∃ w, a.lastWrite = some w ∧ (p.window : Int) < |pos - w.setPoint|
  match a.state with
  | .unconfigured | .faulted => none
  | .braked =>
    if fault then some .driveFault
    else if brakeOpen = true ∧ ∀ w, a.lastWrite = some w → w.release = false then some .brakeMismatch
    else none
  | .releasing =>
    if fault then some .driveFault
    else if beyond then some .overtravel
    else if brakeOpen = true ∧ behind then some .followingError
    else none
  | .following =>
    if fault then some .driveFault
    else if brakeOpen = false then some .brakeMismatch
    else if beyond then some .overtravel
    else if behind then some .followingError
    else none

/-- The missed streak after a miss (07, R133). -/
def missedStreakAfter (a : Axis) : Nat :=
  match a.state with
  | .unconfigured => a.missedStreak
  | .braked | .releasing | .following => min 3 (a.missedStreak + 1)
  | .faulted => if a.faultCause = some .driveSilent then min 3 (a.missedStreak + 1) else max a.missedStreak (min 2 (a.missedStreak + 1))

/-- The write streak after a miss (07, R134). -/
def writeStreakAfter (a : Axis) (kind : ExchangeKind) : Nat :=
  match kind with
  | .write => min 3 (a.writeStreak + 1)
  | .read => a.writeStreak

/-! ### Invariants -/

/-- The output lines follow the axis and flight states (09, R169 to R171). -/
structure OutputsFollow (s : State) : Prop where
  brake : ∀ n, s.brake n = true ↔ (s.axis n).state = .releasing ∨ (s.axis n).state = .following
  pulsed : (∃ sounding count, s.sounder = .pulsed sounding count) ↔ ∃ f, (s.flight f).state = .tripped
  phase : ∀ sounding count, s.sounder = .pulsed sounding count → count < 125
  steady : s.sounder = .steady ↔ (¬∃ f, (s.flight f).state = .tripped) ∧
    ∃ f, (s.flight f).state = .arming ∨ (s.flight f).state = .moving ∨ (s.flight f).state = .stopping ∨
      (s.flight f).state = .dwell
  fault : s.faultLine = true ↔ (∃ f, (s.flight f).state = .tripped) ∨ ∃ n, (s.axis n).state = .faulted

/-- Membership, claims and brakes agree: the closing sentences of 01, R8, R9, R11, of 06, R106 and of 09, R169, with the
drive addresses of 07, R125. -/
structure RigSound (s : State) : Prop where
  members : ∀ f, (s.flight f).members.Nodup ∧ (s.flight f).members.length ≤ 4
  bound : ∀ f n, n ∈ (s.flight f).members ↔ (s.axis n).flight = some f
  free : ∀ f, (s.flight f).state = .free ↔ (s.flight f).members = []
  freeQueue : ∀ f, (s.flight f).state = .free → (s.flight f).queue = []
  configured : ∀ n, (s.axis n).state = .unconfigured ↔ (s.axis n).params = none
  boundConfigured : ∀ n, (s.axis n).flight ≠ none → (s.axis n).state ≠ .unconfigured
  released : ∀ n, (s.axis n).released = true → ∃ f, (s.axis n).flight = some f ∧ (s.flight f).state.flies
  arming : ∀ f n, n ∈ (s.flight f).members → (s.flight f).state = .arming → (s.axis n).released = true
  following : ∀ f n, n ∈ (s.flight f).members → (s.flight f).state.flies → (s.flight f).state ≠ .arming →
    (s.axis n).state = .following
  parked : ∀ f n, n ∈ (s.flight f).members → (s.flight f).state = .parked → (s.axis n).state = .braked
  tripped : ∀ f n, n ∈ (s.flight f).members → (s.flight f).state = .tripped →
    (s.axis n).state = .braked ∨ (s.axis n).state = .faulted
  claimed : ∀ f, (s.flight f).state.flies → (s.flight f).claim ≠ none
  addresses : ∀ m n p q, (s.axis m).params = some p → (s.axis n).params = some q → p.address = q.address → m = n

/-- The optional parts of a flight record that its state allows (01, R9; 03, R45; 05, R89, R95, R97). -/
structure FlightShaped (r : Flight) : Prop where
  atRest : r.state = .free ∨ r.state = .parked ∨ r.state = .arming ∨ r.state = .ready → r.active = none ∧ r.dwell = none
  onPath : r.state = .moving ∨ r.state = .stopping → r.active ≠ none ∧ r.dwell = none
  dwelling : r.state = .dwell → r.active = none ∧ r.dwell ≠ none
  held : r.state = .held → r.active = none ∨ r.dwell = none
  tripped : r.state = .tripped → r.dwell = none
  armTimer : r.armTimer ≠ none ↔ r.state = .arming
  tripCause : r.tripCause ≠ none ↔ r.state = .tripped
  furtherTrips : r.furtherTrips = true → r.state = .tripped

/-- Every flight record has the parts its state allows. -/
def FlightsShaped (s : State) : Prop := ∀ f, FlightShaped (s.flight f)

/-- A segment record's fields in their ranges (02, section 2.1). -/
def Segment.InRange (seg : Segment) : Prop :=
  1 ≤ seg.vmax ∧ seg.vmax ≤ 192000 ∧ 1 ≤ seg.aUp ∧ seg.aUp ≤ 1024 ∧ 1 ≤ seg.aDn ∧ seg.aDn ≤ 1024 ∧ seg.dwell ≤ 65535

/-- An axis's parameters in their ranges (01, section 1.2). -/
def AxisParams.InRange (p : AxisParams) : Prop :=
  0x08 ≤ p.address.toNat ∧ p.address.toNat ≤ 0x77 ∧ 0 ≤ p.lower ∧ p.lower < p.upper ∧ p.upper ≤ 60000000 ∧
    1 ≤ p.vmax ∧ p.vmax ≤ 192000 ∧ 1 ≤ p.amax ∧ p.amax ≤ 1024 ∧ 1 ≤ p.window ∧ p.window ≤ 1000000

/-- A slot's settings and result in their ranges, its two levels not true together (08, sections 8.1, 8.2, R149, R150). -/
def Slot.InRange (k : Slot) : Prop :=
  k.tare ≤ 4095 ∧ -4095 ≤ k.low ∧ k.low ≤ k.high ∧ k.high ≤ 4095 ∧ -4095 ≤ k.slack ∧ k.slack ≤ 4095 ∧ k.raw ≤ 4095 ∧
    -4095 ≤ k.tared ∧ k.tared ≤ 4095 ∧ ¬(k.isOver = true ∧ k.isUnder = true)

/-- Every record holds values in the ranges of its table, and every waiting queue at most 8 records (01, sections 1.1, 1.2; 02,
section 2.1, R23; 08, sections 8.1, 8.2). -/
structure RecordsInRange (s : State) : Prop where
  queue : ∀ f, (s.flight f).queue.length ≤ 8 ∧ ∀ seg ∈ (s.flight f).queue, seg.InRange
  active : ∀ f act, (s.flight f).active = some act → act.seg.InRange
  limits : ∀ f, 1 ≤ (s.flight f).holdDecel ∧ (s.flight f).holdDecel ≤ 1024 ∧ -4095 ≤ (s.flight f).loadMin ∧
    (s.flight f).loadMin ≤ (s.flight f).loadMax ∧ (s.flight f).loadMax ≤ 4095
  timers : ∀ f, (∀ d, (s.flight f).dwell = some d → d ≤ 65535) ∧ ∀ t, (s.flight f).armTimer = some t → t ≤ 100
  params : ∀ n p, (s.axis n).params = some p → p.InRange
  slots : ∀ k, (s.slot k).InRange

/-- The path state of an active segment in a flight's state (03, R52, R57, R58, R61). -/
structure PathSound (state : FlightState) (act : Active) : Prop where
  within : act.pos ≤ act.pathLen
  slowEnough : act.speed ≤ act.vEff
  speedLimit : 1 ≤ act.vEff
  accel : 1 ≤ act.aUpEff
  decel : 1 ≤ act.aDnEff
  braking : state = .moving → brakingDistance act.aDnEff act.speed ≤ act.pathLen - act.pos
  stopping : state = .stopping → ∃ a, act.aStop = some a ∧ act.aDnEff ≤ a ∧
    brakingDistance a act.speed ≤ act.pathLen - act.pos
  resting : state = .held → act.speed = 0

/-- Every active segment's path state is sound. -/
def PathsSound (s : State) : Prop := ∀ f act, (s.flight f).active = some act → PathSound (s.flight f).state act

/-- Streaks and fault causes (07, R133 to R135; 01, R3): a missed streak of 3 belongs to an axis FAULTED with DRIVE_SILENT. -/
structure StreaksSound (s : State) : Prop where
  missed : ∀ n, (s.axis n).missedStreak ≤ 3
  written : ∀ n, (s.axis n).writeStreak ≤ 3
  three : ∀ n, (s.axis n).missedStreak = 3 → (s.axis n).state = .faulted ∧ (s.axis n).faultCause = some .driveSilent
  cause : ∀ n, (s.axis n).faultCause ≠ none ↔ (s.axis n).state = .faulted

/-- Every station's enable is what its links give it (06, R113, R114). -/
def EnablesFollow (s : State) : Prop := ∀ u, s.enables.get u = true ↔ EnableHolds u s

/-- A port between bytes and requests (06, R117; 10, R172, R174, R176). -/
structure PortSound (p : Port) (silent : Bool) : Prop where
  silence : p.silence ≤ 250
  silent : silent = true ↔ p.silence = 250
  buffer : p.tx = .idle → p.buffer = none
  content : p.stage = .content → ∃ len, p.assembly.length = some len ∧ 1 ≤ len.toNat ∧ len.toNat ≤ 200 ∧
    p.assembly.content.length < len.toNat ∧ p.assembly.crc = []
  check : p.stage = .check → ∃ len, p.assembly.length = some len ∧ 1 ≤ len.toNat ∧ len.toNat ≤ 200 ∧
    p.assembly.content.length = len.toNat ∧ p.assembly.crc.length ≤ 1
  length : p.stage = .length → p.assembly = .empty

/-- Every port is sound. -/
def PortsSound (s : State) : Prop := ∀ st, PortSound (s.port st) (s.silents.get st)

/-- The bus controller's round, turn and exchange agree (07, R124, R125, R132, R136, R138). -/
structure BusSound (s : State) : Prop where
  running : s.round = .running ↔ s.turn ≠ none
  pending : s.roundPending = true → s.round = .running
  turn : ∀ x, s.turn = some x → (s.axis x.axis).state ≠ .unconfigured
  exchange : ∀ x, s.exchange = some x → s.turn = some x.turn

/-- The scanner's mode and state agree, and it converts enabled slots only (08, R143, R144, R146). -/
structure ScannerSound (s : State) : Prop where
  stopped : s.scanState = .stopped ↔ s.scanMode = .stopped
  waiting : s.scanState = .waiting → s.scanMode = .step
  scanning : ∀ k, s.scanState = .scanning k → (s.slot k).enabled = true

end Sys2Proof.Machine
end

