-- ==== Sys2Proof/Certificates/Slice0/Obligations.lean ====
section
/-! DEFINITION. The statements for the provers. Each docstring names the rules of spec/ a statement rests on, and the log entry where
a clause is the model's own choice. -/

open Sys2Proof Sys2Proof.Machine

/-! ### The queue, the outcomes, the reset -/

/-- One step runs the command at the front of the queue on the state with the queue's rest, and an empty queue idles (the model's
choice, log entry 1). -/
def Obligations.StepTakesTheFront : Prop :=
  (∀ (c : Instr) (rest : List Instr) (s : State),
    step { s with pending := c :: rest } = exec c { s with pending := rest }) ∧
  ∀ s : State, s.pending = [] → step s = .next s

/-- Every command completes in every state, leaves the queue alone, and only counts free choices up (log entries 1, 6). -/
def Obligations.EveryCommandCompletes : Prop :=
  ∀ (c : Instr) (s : State), ∃ t, exec c s = .next t ∧ t.pending = s.pending ∧ s.freeIndex ≤ t.freeIndex

/-- While RESETN is asserted no command but the reset's own end has an effect, though a line's pin still has its level.
RESETN_ASSERT returns every record to its reset value from any state and stops the step timer; the levels at the pins, which are
outside the part, stay. RESET_END starts the step timer and changes nothing else: RESETN_ASSERT left every filter on, and a line
with its filter on settles later (03, R42; 07, R124; 09, R158; 10, R172; log entry 9). -/
def Obligations.ResetRules : Prop :=
  (∀ (c : Instr) (s : State), s.resetAsserted = true → s.timerRunning = false → c ≠ .resetnAssert → c ≠ .resetEnd →
     match c with
     | .rawLevelChange n level => exec c s = .next (s.updLine n fun l => { l with raw := level })
     | _ => exec c s = .next s) ∧
  (∀ s : State, ∃ t, exec .resetnAssert s = .next t ∧
    t = { State.reset with lines := t.lines, timerRunning := false, resetAsserted := true, freeIndex := s.freeIndex,
                           pending := s.pending } ∧
    ∀ n, t.line n = { raw := (s.line n).raw, filtered := none, filterOn := true, pending := none }) ∧
  ∀ s : State, s.resetAsserted = true → (∀ n, (s.line n).filterOn = true) →
    exec .resetEnd s = .next { s with timerRunning := true, resetAsserted := false }

/-- The values the record tables give for reset, in the state right after reset (R1, R2, R43, R106, R113, R117, R124, R142, R143,
R158, R162, R172), which meets every invariant below. Nothing is said of the pins' raw levels, which are the model's choice (log
entry 8). -/
def Obligations.ResetValues : Prop :=
  (∀ f, State.reset.flight f =
    { state := .free, members := [], claim := none, cueGate := .closed, active := none, dwell := none, armTimer := none,
      queueLow := false, holdCause := none, tripCause := none, furtherTrips := false, holdDecel := 64, loadMin := -4095,
      loadMax := 4095, queue := [] }) ∧
  (∀ n, State.reset.axis n =
    { state := .unconfigured, params := none, setPoint := 0, lastWrite := none, measured := none, driveStatus := none,
      missedStreak := 0, writeStreak := 0, faultCause := none, flight := none }) ∧
  (∀ i, State.reset.link i = none) ∧
  (∀ k, State.reset.slot k =
    { input := 0, enabled := false, tare := 0, high := 0, low := 0, slack := 0, raw := 0, tared := 0, valid := false,
      origin := .converted, isOver := false, isUnder := false }) ∧
  (∀ n, (State.reset.line n).filtered = none ∧ (State.reset.line n).filterOn = true ∧
    (State.reset.line n).pending = none) ∧
  (∀ st, (State.reset.port st).stage = .hunting ∧ (State.reset.port st).assembly = .empty ∧
    (State.reset.port st).buffer = none ∧ (State.reset.port st).tx = .idle ∧ (State.reset.port st).errors = .clear ∧
    (∀ f : FlightId, (State.reset.port st).flightNotices[f] = .clear) ∧ (State.reset.port st).linesNotice = false ∧
    (State.reset.port st).linkNotice = false ∧ (∀ n : LineId, (State.reset.port st).change[n] = false) ∧
    (∀ k : SlotId, (State.reset.port st).fresh[k] = false) ∧ (State.reset.port st).silence = 0) ∧
  (∀ st, State.reset.enables.get st = false ∧ State.reset.silents.get st = false) ∧
  State.reset.scanMode = .stopped ∧ State.reset.scanState = .stopped ∧ State.reset.round = .idle ∧
  State.reset.roundPending = false ∧ State.reset.exchange = none ∧ State.reset.stepCounter = 0 ∧
  (∀ n, State.reset.brake n = false) ∧ State.reset.sounder = .off ∧ State.reset.faultLine = false ∧
  OutputsFollow State.reset ∧ RigSound State.reset ∧ FlightsShaped State.reset ∧ RecordsInRange State.reset ∧
    PathsSound State.reset ∧ StreaksSound State.reset ∧ PortsSound State.reset ∧ BusSound State.reset ∧
    ScannerSound State.reset ∧ EnablesFollow State.reset

/-! ### Invariants -/

/-- BRK, SNDR and FLT follow the axis and flight states at every step: the closing sentences of 09, R169 and R170, and R171. -/
def Obligations.StepKeepsOutputs : Prop :=
  ∀ s t : State, OutputsFollow s → step s = .next t → OutputsFollow t

/-- Membership, claims, brakes and drive addresses agree at every step (01, R8, R9, R11; 06, R106; 07, R125; 09, R169). -/
def Obligations.StepKeepsRig : Prop := ∀ s t : State, RigSound s → step s = .next t → RigSound t

/-- Every flight record has the optional parts its state allows, at every step (01, R9; 03, R45; 05, R89, R95, R97). -/
def Obligations.StepKeepsFlightShapes : Prop := ∀ s t : State, FlightsShaped s → step s = .next t → FlightsShaped t

/-- Every record stays in its ranges and every queue within 8 records (01, sections 1.1, 1.2; 02, section 2.1, R23; 08, R149,
R150). -/
def Obligations.StepKeepsRecords : Prop := ∀ s t : State, RecordsInRange s → step s = .next t → RecordsInRange t

/-- Path position and speed stay within L and v_eff, and a moving or stopping flight can always brake within its path (03, R50,
R54, R55, R58, R61). -/
def Obligations.StepKeepsPaths : Prop :=
  ∀ s t : State, RigSound s → FlightsShaped s → RecordsInRange s → PathsSound s → step s = .next t → PathsSound t

/-- A missed streak lies between 0 and 3, and an axis whose streak is 3 is FAULTED with DRIVE_SILENT (07, R133 to R135). -/
def Obligations.StepKeepsStreaks : Prop :=
  ∀ s t : State, RigSound s → StreaksSound s → step s = .next t → StreaksSound t

/-- The ports, the bus controller and the scanner keep their own bookkeeping: silence counters, receivers and buffers (06, R117;
10, R172, R174, R176; that an IDLE transmitter has an empty buffer rests on log entry 2), round, turn and exchange (07, R124,
R136, R138), the scanner's mode, state and converting slot (08, R143, R144, R146); and every station's enable is what its
ENABLE_STATION links give it (06, R113, R114). -/
def Obligations.StepKeepsControllers : Prop :=
  (∀ s t : State, PortsSound s → step s = .next t → PortsSound t) ∧
  (∀ s t : State, BusSound s → step s = .next t → BusSound t) ∧
  (∀ s t : State, ScannerSound s → step s = .next t → ScannerSound t) ∧
  ∀ s t : State, EnablesFollow s → step s = .next t → EnablesFollow t

/-- A brake line is asserted by an ARM alone: at a step that asserts BRKn, the flight of axis n goes from PARKED to ARMING, its
claimer's enable is true, its claimer is ACTIVE, and no persisting condition holds for it (01, R12, R13; 09, R169). -/
def Obligations.BrakesReleaseByArmAlone : Prop :=
  ∀ (s t : State) (n : AxisId), OutputsFollow s → RigSound s → step s = .next t →
    s.brake n = false → t.brake n = true →
    ∃ f st, n ∈ (t.flight f).members ∧ (s.flight f).state = .parked ∧ (t.flight f).state = .arming ∧
      (t.flight f).claim = some st ∧ t.enables.get st = true ∧ t.silents.get st = false ∧ t.persists f = false

/-- While a flight stays TRIPPED no step moves the set-point of a member (05, R96; 04, R68). -/
def Obligations.TrippedRopesStand : Prop :=
  ∀ (s t : State) (f : FlightId) (n : AxisId), RigSound s → step s = .next t → n ∈ (s.flight f).members →
    (s.flight f).state = .tripped → (t.flight f).state = .tripped → (t.axis n).setPoint = (s.axis n).setPoint

/-- A flight that has an active segment before and after a step has the same one, with its start positions, L and limits unchanged
and s not decreased, or the one that a start makes of its record from the members' records as they stand (03, R45, R51, R61; 02,
R34). -/
def Obligations.SegmentStandsOrIsNew : Prop :=
  ∀ (s t : State) (f : FlightId) (a b : Active), RigSound s → step s = .next t → (s.flight f).active = some a →
    (t.flight f).active = some b →
    (b = { a with pos := b.pos, speed := b.speed, aStop := b.aStop } ∧ a.pos ≤ b.pos) ∨
      b = { activeOf ((t.flight f).members.map t.axis) (t.flight f).holdDecel b.seg b.byCue with aStop := b.aStop }

/-- A trip cause, once recorded, is never replaced: it stands, or the flight has left TRIPPED by a RESET-FLIGHT or by a reset (05,
R97). -/
def Obligations.TripCauseStands : Prop :=
  ∀ (s t : State) (f : FlightId) (c : TripCause), FlightsShaped s → step s = .next t →
    (s.flight f).tripCause = some c →
    (t.flight f).tripCause = some c ∨
      ((t.flight f).tripCause = none ∧ ((t.flight f).state = .parked ∨ (t.flight f).state = .free))

/-! ### Requests on the line -/

/-- A request and its KIND and BODY spell each other (10, R179). A BIND lists one to four axes: another length is no request. -/
def Obligations.RequestsRoundTrip : Prop :=
  (∀ (i : Instr) (st : Station) (kind : Byte) (body : List Byte), encodeRequest i = some (st, kind, body) →
    (∀ u f axes, i = .bind u f axes → 1 ≤ axes.length ∧ axes.length ≤ 4) → decodeRequest st kind body = .request i) ∧
  ∀ (st : Station) (kind : Byte) (body : List Byte) (i : Instr), decodeRequest st kind body = .request i →
    encodeRequest i = some (st, kind, body)

/-- The bytes of a valid frame, one after the other on a quiet port, make its station heard and take its request (06, R119; 10,
R173, R174, R176, R177). A request row's frame is heard first, and its reply replaces what the transmitter held (log entries 2 and
3). -/
def Obligations.FrameBytesTakeTheRequest : Prop :=
  ∀ (st : Station) (kind : Byte) (body : List Byte) (s : State), body.length ≤ 199 → s.resetAsserted = false →
    (s.port st).stage = .hunting → (s.port st).assembly = .empty → (s.port st).buffer = none → (s.port st).tx = .idle →
    execAll ((frameBytes kind body).map fun b => .byteReceived st b true) s =
      match decodeRequest st kind body with
      | .unknownKind => .next (answer st kind .unknownKind s)
      | .badLength => .next (answer st kind .badParameter s)
      | .request i => exec i s

/-- A request row is a valid frame received and its request taken at once (the model's choice, log entries 2 and 3): its station
is heard, its owner acts, and its reply starts. A request that is refused changes nothing but that, with no data in its reply; the
one exception is a GO whose head record is rejected at its start (01, R5, R7, R12; 02, R24, R29, R33; 06, R117, R119, R121; 10,
R178, R182). -/
def Obligations.RefusalsChangeNothing : Prop :=
  ∀ (i : Instr) (st : Station) (kind : Byte) (body : List Byte) (s : State), encodeRequest i = some (st, kind, body) →
    s.resetAsserted = false →
    let heard := markHeard st s
    let served := serveRequest i heard
    exec i s = .next (startReply st kind served.2 served.1) ∧
      (heard.port st).silence = 0 ∧ heard.silents.get st = false ∧
      (served.2.code ≠ .done → served.2.data = [] ∧
        (served.1 = heard ∨ ∃ b, i = .go st b ∧ (served.2.code = .outOfLimits ∨ served.2.code = .loadOutOfWindow)))

/-- A driving request that names no flight is answered BAD_PARAMETER. Otherwise it is passed on only for the claimer of its
flight, and ARM, GO and RESUME only with the claimer's enable true; a frame makes its station ACTIVE, so only a request that
waited in the buffer while its claimer fell SILENT meets the third check (06, R111, R119; 10, R176). A request row's frame is
heard first, and its reply replaces what the transmitter held (log entries 2 and 3). -/
def Obligations.DrivingNeedsTheClaim : Prop :=
  (∀ (st : Station) (flight : Byte) (s : State), 6 ≤ flight.toNat → s.resetAsserted = false →
    exec (.unbind st flight) s = .next (answer st kindUnbind .badParameter s) ∧
    exec (.arm st flight) s = .next (answer st kindArm .badParameter s) ∧
    exec (.go st flight) s = .next (answer st kindGo .badParameter s) ∧
    exec (.resume st flight) s = .next (answer st kindResume .badParameter s) ∧
    exec (.cancel st flight) s = .next (answer st kindCancel .badParameter s) ∧
    exec (.park st flight) s = .next (answer st kindPark .badParameter s) ∧
    exec (.resetFlight st flight) s = .next (answer st kindResetFlight .badParameter s) ∧
    exec (.openCue st flight) s = .next (answer st kindOpenCue .badParameter s) ∧
    exec (.closeCue st flight) s = .next (answer st kindCloseCue .badParameter s) ∧
    exec (.flush st flight) s = .next (answer st kindFlush .badParameter s)) ∧
  ∀ (st : Station) (flight : Byte) (f : FlightId) (s : State), NamesFlight flight f → s.resetAsserted = false →
    ((s.flight f).claim ≠ some st →
      exec (.unbind st flight) s = .next (answer st kindUnbind .notClaimed s) ∧
      exec (.arm st flight) s = .next (answer st kindArm .notClaimed s) ∧
      exec (.go st flight) s = .next (answer st kindGo .notClaimed s) ∧
      exec (.resume st flight) s = .next (answer st kindResume .notClaimed s) ∧
      exec (.cancel st flight) s = .next (answer st kindCancel .notClaimed s) ∧
      exec (.park st flight) s = .next (answer st kindPark .notClaimed s) ∧
      exec (.resetFlight st flight) s = .next (answer st kindResetFlight .notClaimed s) ∧
      exec (.openCue st flight) s = .next (answer st kindOpenCue .notClaimed s) ∧
      exec (.closeCue st flight) s = .next (answer st kindCloseCue .notClaimed s) ∧
      exec (.flush st flight) s = .next (answer st kindFlush .notClaimed s) ∧
      (∀ axes, (bindAxesOf axes).isSome = true →
        exec (.bind st flight axes) s = .next (answer st kindBind .notClaimed s)) ∧
      (∀ decel lo hi, (limitsOf decel lo hi).isSome = true →
        exec (.setFlightLimits st flight decel lo hi) s = .next (answer st kindSetFlightLimits .notClaimed s)) ∧
      (∀ tag presence t0 t1 t2 t3 vmax aUp aDn dwell start flags,
        (segmentOf tag presence t0 t1 t2 t3 vmax aUp aDn dwell start flags).isSome = true →
        exec (.append st flight tag presence t0 t1 t2 t3 vmax aUp aDn dwell start flags) s =
          .next (answer st kindAppend .notClaimed s)) ∧
      ∀ (axis : Byte) (n : AxisId) address lower upper vmax amax window slot, axis.toNat = n.val →
        (s.axis n).flight = some f → (paramsOf address lower upper vmax amax window slot).isSome = true →
        exec (.configureAxis st axis address lower upper vmax amax window slot) s =
          .next (answer st kindConfigureAxis .notClaimed s)) ∧
    ((s.flight f).claim = some st → s.enables.get st = false →
      exec (.arm st flight) s = .next (answer st kindArm .notEnabled s) ∧
      exec (.go st flight) s = .next (answer st kindGo .notEnabled s) ∧
      exec (.resume st flight) s = .next (answer st kindResume .notEnabled s)) ∧
    ∀ kind ∈ [kindArm, kindGo, kindResume], (s.flight f).claim = some st → s.silents.get st = true →
      (s.port st).tx ≠ .idle → (s.port st).buffer = some { kind := kind, body := [flight] } →
      exec (.replySent st) s =
        .next (reply st kind .notEnabled (s.updPort st fun p => { p with tx := .idle, buffer := none }))

/-- While a level hold or trip link aimed at a flight, or at all flights, has its condition true, the flight is neither armed nor
started nor resumed nor reset, and a cue to it has no effect, the cue of the very event that makes the condition true among them
(read from R30, R166 and R167: log entry 16). A cue and an edge hold of one event give either a segment started and then stopped,
or a hold without effect and then a start; a cue and an edge trip give a segment started and then tripped, or the trip alone; a
cue and a level hold leave the flight READY, and a cue and a level trip give the trip alone (09, R165 to R168; 01, R12; 02, R29,
R30; 05, R90, R95, R99). A request row's frame is heard first, and its reply replaces what the transmitter held (log entries 2 and
3). -/
def Obligations.PersistingConditionRefuses : Prop :=
  (∀ (st : Station) (flight : Byte) (f : FlightId) (i : LinkId) (l : Link) (s : State), NamesFlight flight f →
    s.resetAsserted = false → (s.flight f).claim = some st → s.link i = some l → l.Targets f → l.ConditionTrue s →
    cueFlight f s = s ∧
    match (s.flight f).state with
    | .parked => s.enables.get st = true → exec (.arm st flight) s = .next (answer st kindArm .conditionPersists s)
    | .ready => s.enables.get st = true → exec (.go st flight) s = .next (answer st kindGo .conditionPersists s)
    | .held => s.enables.get st = true → exec (.resume st flight) s = .next (answer st kindResume .conditionPersists s)
    | .tripped => exec (.resetFlight st flight) s = .next (answer st kindResetFlight .conditionPersists s)
    | _ => True) ∧
  ∀ (n : LineId) (i j : LinkId) (cond : Condition) (action : Action) (f : FlightId) (st : Station) (seg : Segment)
    (rest : List Segment) (s : State),
    s.resetAsserted = false → (s.line n).filterOn = true → (s.line n).filtered = some .low →
    (s.line n).pending = some .high → s.link i = some { source := .line n, cond := .rise, action := .cueFlight f } →
    s.link j = some { source := .line n, cond := cond, action := action } →
    (∀ k l, k ≠ i → k ≠ j → s.link k = some l → l.source ≠ .line n) →
    (s.flight f).state = .ready → (s.flight f).cueGate = .opened → (s.flight f).queue = seg :: rest →
    seg.start = .cue → (s.flight f).claim = some st → s.enables.get st = true → s.silents.get st = false →
    (∀ k l, s.link k = some l → l.Targets f → ¬l.ConditionTrue s) → TargetsFit s f seg →
    (seg.loadCheck = true → LoadsFit s f) →
    let act := activeOf ((s.flight f).members.map s.axis) (s.flight f).holdDecel seg true
    let started : Flight :=
      { s.flight f with state := .moving, queue := rest, active := some act,
                        queueLow := if rest = [] then true else (s.flight f).queueLow }
    let stopped := started.afterHold (.linkHold j)
    ∃ t, exec (.filterAccept n) s = .next t ∧
      (cond = .rise → action = .holdFlight f → t.flight f = stopped ∨ t.flight f = started) ∧
      (cond = .high → action = .holdFlight f → t.flight f = s.flight f) ∧
      (cond = .rise → action = .tripFlight f →
        t.flight f = started.afterTrip (.linkTrip j) ∨ t.flight f = (s.flight f).afterTrip (.linkTrip j)) ∧
      (cond = .high → action = .tripFlight f → t.flight f = (s.flight f).afterTrip (.linkTrip j))

/-! ### Station authority -/

/-- CLAIM, case by case (06, R107). A request row's frame is heard first, and its reply replaces what the transmitter held (log
entries 2 and 3). -/
def Obligations.ClaimTable : Prop :=
  (∀ (st : Station) (flight take : Byte) (s : State), s.resetAsserted = false → 6 ≤ flight.toNat ∨ 2 ≤ take.toNat →
    exec (.claim st flight take) s = .next (answer st kindClaim .badParameter s)) ∧
  ∀ (st : Station) (flight take : Byte) (f : FlightId) (s : State), NamesFlight flight f → s.resetAsserted = false →
    take.toNat < 2 →
    let granted := (markHeard st s).updFlight f fun r => { r with claim := some st }
    exec (.claim st flight take) s = .next (
      if (s.flight f).claim = some st then answer st kindClaim .done s
      else if (s.flight f).claim = none then reply st kindClaim .done granted
      else if take = 0 then answer st kindClaim .claimedElsewhere s
      else
        match (s.flight f).state with
        | .free | .arming | .moving | .dwell | .stopping => answer st kindClaim .badState s
        | .parked | .ready | .held | .tripped => reply st kindClaim .done granted)

/-- RELEASE (06, R109). A request row's frame is heard first, and its reply replaces what the transmitter held (log entries 2 and
3). -/
def Obligations.ReleaseRule : Prop :=
  (∀ (st : Station) (flight : Byte) (s : State), s.resetAsserted = false → 6 ≤ flight.toNat →
    exec (.release st flight) s = .next (answer st kindRelease .badParameter s)) ∧
  ∀ (st : Station) (flight : Byte) (f : FlightId) (s : State), NamesFlight flight f → s.resetAsserted = false →
    exec (.release st flight) s = .next (
      if (s.flight f).claim ≠ some st then answer st kindRelease .notClaimed s
      else
        match (s.flight f).state with
        | .arming | .ready | .moving | .dwell | .stopping | .held => answer st kindRelease .badState s
        | .free | .parked | .tripped =>
          reply st kindRelease .done ((markHeard st s).updFlight f fun r => { r with claim := none }))

/-- At the expiry that brings an ACTIVE station's counter to 250 the station becomes SILENT and every flight it claims is held or
aborted with STATION_SILENT (06, R117, R118; the row as that happening alone, log entry 5). -/
def Obligations.SilenceRestrains : Prop :=
  ∀ (st : Station) (s : State), s.timerRunning = true → s.silents.get st = false → (s.port st).silence = 249 →
    ∃ t, exec (.silence st) s = .next t ∧
      RestrainedBy st .stationSilent ((s.updPort st fun p => { p with silence := 250 }).setSilent st true) t

/-! ### Flights and axes -/

/-- BIND makes the listed axes the members, in their order, or is refused by the first of its checks that fails; UNBIND takes a
PARKED flight of its claimer apart and is refused elsewhere (01, R7 to R9). A request row's frame is heard first, and its reply
replaces what the transmitter held (log entries 2 and 3). -/
def Obligations.BindAndUnbind : Prop :=
  (∀ (st : Station) (flight : Byte) (axes : List Byte) (s : State), s.resetAsserted = false →
     6 ≤ flight.toNat ∨ axes = [] ∨ 4 < axes.length ∨ (∃ b ∈ axes, 12 ≤ b.toNat) ∨ ¬axes.Nodup →
     exec (.bind st flight axes) s = .next (answer st kindBind .badParameter s)) ∧
  (∀ (st : Station) (flight : Byte) (f : FlightId) (axes : List Byte) (ns : List AxisId) (s : State),
     NamesFlight flight f → s.resetAsserted = false → axes.map BitVec.toNat = ns.map Fin.val → 1 ≤ ns.length →
     ns.length ≤ 4 → ns.Nodup →
     let refused (code : ResultCode) := exec (.bind st flight axes) s = .next (answer st kindBind code s)
     ((s.flight f).claim ≠ some st → refused .notClaimed) ∧
     ((s.flight f).claim = some st → (s.flight f).state ≠ .free → (s.flight f).state ≠ .parked → refused .badState) ∧
     ((s.flight f).claim = some st → (s.flight f).state = .free ∨ (s.flight f).state = .parked →
       let away (n : AxisId) := (s.axis n).state = .unconfigured ∨ ((s.axis n).flight ≠ none ∧ (s.axis n).flight ≠ some f)
       ((∃ n ∈ ns, away n) → refused .axisUnavailable) ∧
       ((∀ n ∈ ns, ¬away n) → (∃ n ∈ ns, (s.axis n).state = .faulted) → refused .axisFault))) ∧
  (∀ (st : Station) (flight : Byte) (f : FlightId) (axes : List Byte) (ns : List AxisId) (s : State),
     NamesFlight flight f → s.resetAsserted = false → axes.map BitVec.toNat = ns.map Fin.val → 1 ≤ ns.length →
     ns.length ≤ 4 → ns.Nodup → (s.flight f).claim = some st →
     (s.flight f).state = .free ∨ (s.flight f).state = .parked →
     (∀ n ∈ ns, (s.axis n).state ≠ .unconfigured ∧ (s.axis n).state ≠ .faulted ∧
       ((s.axis n).flight = none ∨ (s.axis n).flight = some f)) →
     ∃ t, exec (.bind st flight axes) s = .next t ∧
       t.flight f = { s.flight f with state := .parked, members := ns, queue := [], queueLow := false } ∧
       OtherFlightsKept f s t ∧
       (∀ n ∈ ns, t.axis n =
         if (s.flight f).state = .free then { (s.axis n).brakedDown with flight := some f }
         else { s.axis n with flight := some f }) ∧
       (∀ n, n ∉ ns → t.axis n =
         if n ∈ (s.flight f).members then { s.axis n with flight := none } else s.axis n) ∧
       OnlyMotionChanged (markHeard st s) t ∧
       if (s.flight f).state = .free then
         t.ports = (reply st kindBind .done (raiseState f (markHeard st s))).ports ∧ OutputsDriven s t
       else t.ports = (answer st kindBind .done s).ports ∧ OutputsKept s t) ∧
  ∀ (st : Station) (flight : Byte) (f : FlightId) (s : State), NamesFlight flight f → s.resetAsserted = false →
    if (s.flight f).claim ≠ some st then exec (.unbind st flight) s = .next (answer st kindUnbind .notClaimed s)
    else if (s.flight f).state = .parked then
      ∃ t, exec (.unbind st flight) s = .next t ∧
        t.flight f = { s.flight f with state := .free, members := [], queue := [], queueLow := false,
                                       holdCause := none } ∧
        OtherFlightsKept f s t ∧
        (∀ n, t.axis n = if n ∈ (s.flight f).members then { s.axis n with flight := none } else s.axis n) ∧
        t.ports = (reply st kindUnbind .done (raiseState f (markHeard st s))).ports ∧ OutputsDriven s t ∧
        OnlyMotionChanged (markHeard st s) t
    else exec (.unbind st flight) s = .next (answer st kindUnbind .badState s)

/-- CONFIGURE-AXIS is refused by the first of its checks that fails. Otherwise it stores every parameter and takes the axis to
BRAKED from UNCONFIGURED or FAULTED, and a new drive address drops what the old one brought (01, R5, R6; 07, R125, R133, R134). A
request row's frame is heard first, and its reply replaces what the transmitter held (log entries 2 and 3). -/
def Obligations.ConfigureAxisStores : Prop :=
  (∀ (st : Station) (axis address : Byte) (lower upper vmax : Word) (amax : Half) (window : Word) (slot : Byte) (s : State),
    s.resetAsserted = false →
    12 ≤ axis.toNat ∨ address.toNat < 0x08 ∨ 0x77 < address.toNat ∨ lower.toInt < 0 ∨ upper.toInt ≤ lower.toInt ∨
      60000000 < upper.toInt ∨ vmax.toNat < 1 ∨ 192000 < vmax.toNat ∨ amax.toNat < 1 ∨ 1024 < amax.toNat ∨
      window.toNat < 1 ∨ 1000000 < window.toNat ∨ (slot ≠ 0xFF ∧ 8 ≤ slot.toNat) →
    exec (.configureAxis st axis address lower upper vmax amax window slot) s =
      .next (answer st kindConfigureAxis .badParameter s)) ∧
  ∀ (st : Station) (axis address : Byte) (lower upper vmax : Word) (amax : Half) (window : Word) (slot : Byte)
    (n : AxisId) (k : Option SlotId) (s : State), s.resetAsserted = false → axis.toNat = n.val →
    0x08 ≤ address.toNat → address.toNat ≤ 0x77 → 0 ≤ lower.toInt → lower.toInt < upper.toInt →
    upper.toInt ≤ 60000000 → 1 ≤ vmax.toNat → vmax.toNat ≤ 192000 → 1 ≤ amax.toNat → amax.toNat ≤ 1024 →
    1 ≤ window.toNat → window.toNat ≤ 1000000 →
    (slot = 0xFF ∧ k = none) ∨ (∃ q : SlotId, slot.toNat = q.val ∧ k = some q) →
    let p : AxisParams := { address := address.setWidth 7, lower := lower.toInt, upper := upper.toInt,
                            vmax := vmax.toNat, amax := amax.toNat, window := window.toNat, slot := k }
    let a := s.axis n
    let first := a.state = .unconfigured
    let moved := a.params.map AxisParams.address ≠ some p.address
    let result := exec (.configureAxis st axis address lower upper vmax amax window slot) s
    let refused (code : ResultCode) := result = .next (answer st kindConfigureAxis code s)
    let taken := ∃ m, m ≠ n ∧ (s.axis m).state ≠ .unconfigured ∧ (s.axis m).params.map AxisParams.address = some p.address
    if ∃ f, a.flight = some f ∧ (s.flight f).claim ≠ some st then refused .notClaimed
    else if ∃ f, a.flight = some f ∧ (s.flight f).state ≠ .parked then refused .axisUnavailable
    else if taken then refused .addressInUse
    else if a.missedStreak = 3 then refused .axisFault
    else
      ∃ t, result = .next t ∧
        t.axis n =
          { a with params := some p
                   state := if first ∨ a.state = .faulted then .braked else a.state
                   faultCause := if a.state = .faulted then none else a.faultCause
                   setPoint := if first then 0 else a.setPoint
                   measured := if first ∨ moved then none else a.measured
                   driveStatus := if first ∨ moved then none else a.driveStatus
                   lastWrite := if first ∨ moved then none else a.lastWrite
                   missedStreak := if first ∨ moved then 0 else a.missedStreak
                   writeStreak := if first ∨ moved then 0 else a.writeStreak } ∧
        (∀ m, m ≠ n → t.axis m = s.axis m) ∧
        t.exchange = (if moved then s.exchange.map fun x => if x.axis = n then { x with discarded := true } else x
                      else s.exchange) ∧
        t.flights = s.flights ∧ t.ports = (answer st kindConfigureAxis .done s).ports ∧ OutputsDriven s t ∧
        OnlyMotionChanged { markHeard st s with exchange := t.exchange } t

/-- SET-FLIGHT-LIMITS (01, R20, R21). A request row's frame is heard first, and its reply replaces what the transmitter held (log
entries 2 and 3). -/
def Obligations.FlightLimitsRule : Prop :=
  ∀ (st : Station) (flight : Byte) (decel lo hi : Half) (s : State), s.resetAsserted = false →
    if 6 ≤ flight.toNat ∨ decel.toNat < 1 ∨ 1024 < decel.toNat ∨ lo.toInt < -4095 ∨ 4095 < lo.toInt ∨ hi.toInt < -4095 ∨
        4095 < hi.toInt ∨ hi.toInt < lo.toInt then
      exec (.setFlightLimits st flight decel lo hi) s = .next (answer st kindSetFlightLimits .badParameter s)
    else
      ∃ f, NamesFlight flight f ∧ exec (.setFlightLimits st flight decel lo hi) s = .next (
        if (s.flight f).claim ≠ some st then answer st kindSetFlightLimits .notClaimed s
        else reply st kindSetFlightLimits .done
          ((markHeard st s).updFlight f fun r => { r with holdDecel := decel.toNat, loadMin := lo.toInt, loadMax := hi.toInt }))

/-- ARM by a claimer that may start: BAD_STATE away from PARKED, AXIS_UNAVAILABLE while a member has no measured position,
otherwise the members RELEASING at their measured positions and the timer at 100 (01, R12, R13; 04, R66). A request row's frame is
heard first, and its reply replaces what the transmitter held (log entries 2 and 3). -/
def Obligations.ArmReleases : Prop :=
  ∀ (st : Station) (flight : Byte) (f : FlightId) (s : State), NamesFlight flight f → s.resetAsserted = false →
    (s.flight f).claim = some st → s.enables.get st = true →
    (∀ i l, s.link i = some l → l.Targets f → ¬l.ConditionTrue s) →
    if (s.flight f).state ≠ .parked then exec (.arm st flight) s = .next (answer st kindArm .badState s)
    else if ∃ n ∈ (s.flight f).members, (s.axis n).measured = none then
      exec (.arm st flight) s = .next (answer st kindArm .axisUnavailable s)
    else
      ∃ t, exec (.arm st flight) s = .next t ∧
        t.flight f = { s.flight f with state := .arming, armTimer := some 100 } ∧ OtherFlightsKept f s t ∧
        (∀ n ∈ (s.flight f).members, ∀ m, (s.axis n).measured = some m →
          t.axis n = { s.axis n with state := .releasing, setPoint := m } ∧ t.brake n = true) ∧
        (∀ n, n ∉ (s.flight f).members → t.axis n = s.axis n) ∧
        t.ports = (reply st kindArm .done (raiseState f (markHeard st s))).ports ∧ OutputsDriven s t ∧
        OnlyMotionChanged (markHeard st s) t

/-- PARK brakes a READY or HELD flight of its claimer, whatever the claimer's enable, and is refused elsewhere (01, R18, R19). A
request row's frame is heard first, and its reply replaces what the transmitter held (log entries 2 and 3). -/
def Obligations.ParkBrakes : Prop :=
  ∀ (st : Station) (flight : Byte) (f : FlightId) (s : State), NamesFlight flight f → s.resetAsserted = false →
    (s.flight f).claim = some st →
    if (s.flight f).state = .ready ∨ (s.flight f).state = .held then
      ∃ t, exec (.park st flight) s = .next t ∧
        t.flight f = { s.flight f with state := .parked, active := none, dwell := none } ∧ OtherFlightsKept f s t ∧
        (∀ n, t.axis n = if n ∈ (s.flight f).members then (s.axis n).brakedDown else s.axis n) ∧
        t.ports = (reply st kindPark .done (raiseState f (markHeard st s))).ports ∧ OutputsDriven s t ∧
        OnlyMotionChanged (markHeard st s) t
    else exec (.park st flight) s = .next (answer st kindPark .badState s)

/-- BRAKE_TIMEOUT trips an ARMING flight whose timer runs out with a member still RELEASING, and names the first such member (01,
R15; 05, R95). SNDR_PHASE_EXPIRY ends a phase of PULSED at its 125th expiry (09, R170). Each row is that happening alone (log
entry 5). -/
def Obligations.LoneExpiries : Prop :=
  (∀ (f : FlightId) (n : AxisId) (before after : List AxisId) (k : Nat) (s : State), s.timerRunning = true →
    (s.flight f).state = .arming → (s.flight f).armTimer = some k → k ≤ 1 →
    (s.flight f).members = before ++ n :: after → (s.axis n).state = .releasing →
    (∀ m ∈ before, (s.axis m).state ≠ .releasing) →
    ∃ t, exec (.brakeTimeout f) s = .next t ∧
      t.flight f = { s.flight f with state := .tripped, dwell := none, armTimer := none,
                                     tripCause := some (.brakeTimeout n) } ∧
      OtherFlightsKept f s t ∧
      (∀ m, t.axis m = if m ∈ (s.flight f).members then (s.axis m).brakedDown else s.axis m) ∧
      t.ports = (raiseState f s).ports ∧ OutputsDriven s t ∧ OnlyMotionChanged s t) ∧
  ∀ (sounding : Bool) (s : State), s.timerRunning = true → s.sounder = .pulsed sounding 124 →
    exec .sndrPhaseExpiry s = .next { s with sounder := .pulsed (!sounding) 0 }

/-! ### The segment queue -/

/-- APPEND is refused by the first of its checks that fails, those of the port for a field out of its range first; otherwise the
record joins the tail and queue-low is cleared (02, R24, R25; 10, R177, R179). A request row's frame is heard first, and its reply
replaces what the transmitter held (log entries 2 and 3). -/
def Obligations.AppendJoinsTheTail : Prop :=
  (∀ (st : Station) (flight : Byte) (tag : Half) (presence : Byte) (t0 t1 t2 t3 vmax : Word) (aUp aDn dwell : Half)
    (start flags : Byte) (s : State), s.resetAsserted = false →
    6 ≤ flight.toNat ∨ 16 ≤ presence.toNat ∨ 4 ≤ flags.toNat ∨ vmax.toNat < 1 ∨ 192000 < vmax.toNat ∨ aUp.toNat < 1 ∨
      1024 < aUp.toNat ∨ aDn.toNat < 1 ∨ 1024 < aDn.toNat ∨ 3 ≤ start.toNat →
    exec (.append st flight tag presence t0 t1 t2 t3 vmax aUp aDn dwell start flags) s =
      .next (answer st kindAppend .badParameter s)) ∧
  ∀ (st : Station) (flight : Byte) (f : FlightId) (tag : Half) (presence : Byte) (t0 t1 t2 t3 vmax : Word)
    (aUp aDn dwell : Half) (start flags : Byte) (k : StartKind) (s : State), NamesFlight flight f →
    s.resetAsserted = false → presence.toNat < 16 →
    flags.toNat < 4 → 1 ≤ vmax.toNat → vmax.toNat ≤ 192000 → 1 ≤ aUp.toNat → aUp.toNat ≤ 1024 → 1 ≤ aDn.toNat →
    aDn.toNat ≤ 1024 → (start = 0 ∧ k = .go ∨ start = 1 ∧ k = .cue ∨ start = 2 ∧ k = .follow) →
    let seg : Segment :=
      { tag := tag
        targets := #v[if presence.getLsbD 0 then some t0.toInt else none,
                      if presence.getLsbD 1 then some t1.toInt else none,
                      if presence.getLsbD 2 then some t2.toInt else none,
                      if presence.getLsbD 3 then some t3.toInt else none]
        vmax := vmax.toNat, aUp := aUp.toNat, aDn := aDn.toNat, dwell := dwell.toNat, start := k,
        recycle := flags.getLsbD 0, loadCheck := flags.getLsbD 1 }
    let result := exec (.append st flight tag presence t0 t1 t2 t3 vmax aUp aDn dwell start flags) s
    if (s.flight f).claim ≠ some st then result = .next (answer st kindAppend .notClaimed s)
    else if (s.flight f).state = .free then result = .next (answer st kindAppend .badState s)
    else
      ((∃ i : Fin 4, (s.flight f).members.length ≤ i.val ∧ presence.getLsbD i = true) →
        result = .next (answer st kindAppend .badParameter s)) ∧
      ((∀ i : Fin 4, (s.flight f).members.length ≤ i.val → presence.getLsbD i = false) →
        (¬TargetsFit s f seg → result = .next (answer st kindAppend .outOfLimits s)) ∧
        (TargetsFit s f seg → result = .next (
          if 8 ≤ (s.flight f).queue.length then answer st kindAppend .queueFull s
          else reply st kindAppend .done
            ((markHeard st s).updFlight f fun r => { r with queue := r.queue ++ [seg], queueLow := false }))))

/-- FLUSH empties the queue of a flight that is not FREE and changes nothing else; OPEN-CUE and CLOSE-CUE set the gate in every
flight state (02, R26, R28). A request row's frame is heard first, and its reply replaces what the transmitter held (log entries 2
and 3). -/
def Obligations.FlushAndCueGates : Prop :=
  ∀ (st : Station) (flight : Byte) (f : FlightId) (s : State), NamesFlight flight f → s.resetAsserted = false →
    (s.flight f).claim = some st →
    exec (.flush st flight) s = .next (
      if (s.flight f).state = .free then answer st kindFlush .badState s
      else reply st kindFlush .done ((markHeard st s).updFlight f fun r => { r with queue := [] })) ∧
    exec (.openCue st flight) s =
      .next (reply st kindOpenCue .done ((markHeard st s).updFlight f fun r => { r with cueGate := .opened })) ∧
    exec (.closeCue st flight) s =
      .next (reply st kindCloseCue .done ((markHeard st s).updFlight f fun r => { r with cueGate := .closed }))

/-- GO by a claimer that may start, with no persisting condition: BAD_STATE away from READY, QUEUE_EMPTY without a head, and a
head that passes both checks becomes the active segment at s = 0 and v = 0, with queue-low set and LOW raised where the queue is
left empty (02, R27, R29, R31, R32, R34). A request row's frame is heard first, and its reply replaces what the transmitter held
(log entries 2 and 3). -/
def Obligations.GoStartsTheHead : Prop :=
  ∀ (st : Station) (flight : Byte) (f : FlightId) (s : State), NamesFlight flight f → s.resetAsserted = false →
    (s.flight f).claim = some st → s.enables.get st = true →
    (∀ i l, s.link i = some l → l.Targets f → ¬l.ConditionTrue s) →
    if (s.flight f).state ≠ .ready then exec (.go st flight) s = .next (answer st kindGo .badState s)
    else
      match (s.flight f).queue with
      | [] => exec (.go st flight) s = .next (answer st kindGo .queueEmpty s)
      | seg :: rest => TargetsFit s f seg → (seg.loadCheck = true → LoadsFit s f) →
        ∃ t act, exec (.go st flight) s = .next t ∧
          t.flight f = { s.flight f with state := .moving, queue := rest, active := some act,
                                         queueLow := if rest = [] then true else (s.flight f).queueLow } ∧
          act = activeOf ((s.flight f).members.map s.axis) (s.flight f).holdDecel seg false ∧
          act.seg = seg ∧ act.starts = (s.flight f).members.map (fun n => (s.axis n).setPoint) ∧ act.pos = 0 ∧
          act.speed = 0 ∧ act.aStop = none ∧ act.byCue = false ∧ OtherFlightsKept f s t ∧ t.axes = s.axes ∧
          t.ports = (reply st kindGo .done (raiseState f (if rest = [] then raiseLow f (markHeard st s) else markHeard st s))).ports ∧
          OutputsDriven s t ∧ OnlyMotionChanged (markHeard st s) t

/-- GO on a head that fails a start check: the record is discarded, REJECT raised, the flight stays READY, and the code names the
check that failed (02, R29, R31, R32, R33). A request row's frame is heard first, and its reply replaces what the transmitter held
(log entries 2 and 3). -/
def Obligations.GoRejectsTheHead : Prop :=
  ∀ (st : Station) (flight : Byte) (f : FlightId) (seg : Segment) (rest : List Segment) (s : State),
    NamesFlight flight f → s.resetAsserted = false → (s.flight f).claim = some st → s.enables.get st = true →
    (∀ i l, s.link i = some l → l.Targets f → ¬l.ConditionTrue s) →
    (s.flight f).state = .ready → (s.flight f).queue = seg :: rest →
    let dropped := raiseReject f ((markHeard st s).updFlight f fun r => { r with queue := rest })
    (¬TargetsFit s f seg → exec (.go st flight) s = .next (reply st kindGo .outOfLimits dropped)) ∧
    (TargetsFit s f seg → seg.loadCheck = true → ¬LoadsFit s f →
      exec (.go st flight) s = .next (reply st kindGo .loadOutOfWindow dropped))

/-- A rise of a line whose only link is a CUE_FLIGHT link starts the CUE head of a READY flight with its gate OPEN, and without
the gate it has no effect on the flight (02, R30, R34; 09, R159, R161, R165). -/
def Obligations.CueStartsTheHead : Prop :=
  ∀ (n : LineId) (i : LinkId) (f : FlightId) (st : Station) (seg : Segment) (rest : List Segment) (s : State),
    s.resetAsserted = false → (s.line n).filterOn = true → (s.line n).filtered = some .low →
    (s.line n).pending = some .high → SoleLink i { source := .line n, cond := .rise, action := .cueFlight f } s →
    (s.flight f).state = .ready → (s.flight f).queue = seg :: rest → seg.start = .cue →
    (s.flight f).claim = some st → s.enables.get st = true → s.silents.get st = false →
    (∀ j l, s.link j = some l → l.Targets f → ¬l.ConditionTrue s) → TargetsFit s f seg →
    (seg.loadCheck = true → LoadsFit s f) →
    ∃ t, exec (.filterAccept n) s = .next t ∧
      (t.line n).filtered = some .high ∧ (t.line n).pending = none ∧
      (∀ u, (t.port u).change[n] = true ∧ (t.port u).linesNotice = true) ∧ OtherFlightsKept f s t ∧ t.axes = s.axes ∧
      t.flight f =
        if (s.flight f).cueGate = .opened then
          { s.flight f with
              state := .moving, queue := rest, queueLow := if rest = [] then true else (s.flight f).queueLow
              active := some (activeOf ((s.flight f).members.map s.axis) (s.flight f).holdDecel seg true) }
        else s.flight f

/-- What a start fixes: L is sixteen times the largest displacement; each effective limit is the smallest of what was asked for
and the allowances of the members that move, so that no rope is driven faster, or its speed changed faster, than its own limits
(03, R46 to R50). -/
def Obligations.StartFixesTheLimits : Prop :=
  ∀ (members : List Axis) (decel : Nat) (seg : Segment) (byCue : Bool),
    (∀ a ∈ members, ∃ p, a.params = some p ∧ p.InRange) → seg.InRange → 1 ≤ decel →
    let act := activeOf members decel seg byCue
    let delta (i : Nat) (a : Axis) : Int := match seg.target i with | some x => x - a.setPoint | none => 0
    (∀ i a, members[i]? = some a → 16 * (delta i a).natAbs ≤ act.pathLen) ∧
    (act.pathLen = 0 ∨ ∃ i a, members[i]? = some a ∧ 16 * (delta i a).natAbs = act.pathLen) ∧
    (1 ≤ act.vEff ∧ act.vEff ≤ seg.vmax) ∧ (1 ≤ act.aUpEff ∧ act.aUpEff ≤ seg.aUp) ∧
    (1 ≤ act.aDnEff ∧ act.aDnEff ≤ seg.aDn) ∧ (1 ≤ act.aHoldEff ∧ act.aHoldEff ≤ decel) ∧
    (act.pathLen = 0 → act.vEff = seg.vmax ∧ act.aUpEff = seg.aUp ∧ act.aDnEff = seg.aDn ∧ act.aHoldEff = decel) ∧
    (∀ i a p, members[i]? = some a → a.params = some p →
      act.vEff * (16 * (delta i a).natAbs) ≤ p.vmax * act.pathLen ∧
      act.aUpEff * (16 * (delta i a).natAbs) ≤ p.amax * act.pathLen ∧
      act.aDnEff * (16 * (delta i a).natAbs) ≤ p.amax * act.pathLen ∧
      act.aHoldEff * (16 * (delta i a).natAbs) ≤ p.amax * act.pathLen) ∧
    let allowance (limit : AxisParams → Nat) (p : AxisParams) (i : Nat) (a : Axis) : Nat :=
      limit p * act.pathLen / (16 * (delta i a).natAbs)
    let smallest (limit : AxisParams → Nat) (asked value : Nat) : Prop :=
      value ≤ asked ∧
      (∀ i a p, members[i]? = some a → a.params = some p → delta i a ≠ 0 → value ≤ allowance limit p i a) ∧
      (value = asked ∨ ∃ i a p, members[i]? = some a ∧ a.params = some p ∧ delta i a ≠ 0 ∧ value = allowance limit p i a)
    smallest (·.vmax) seg.vmax act.vEff ∧ smallest (·.amax) seg.aUp act.aUpEff ∧ smallest (·.amax) seg.aDn act.aDnEff ∧
      smallest (·.amax) decel act.aHoldEff

/-- DWELL_EXPIRY removes a dwell remaining that runs out and makes the follow decision: a FOLLOW head that passes its start checks
starts, with no cue; one that fails them is discarded with REJECT on every port and the flight goes READY; without a FOLLOW head
the flight goes READY (02, R33, R38, R39; the row as that happening alone, log entry 5). -/
def Obligations.DwellEnds : Prop :=
  ∀ (f : FlightId) (d : Nat) (s : State), s.timerRunning = true → (s.flight f).state = .dwell →
    (s.flight f).dwell = some d → d ≤ 1 →
    ∃ t, exec (.dwellExpiry f) s = .next t ∧ OtherFlightsKept f s t ∧ t.axes = s.axes ∧ OnlyMotionChanged s t ∧
      OutputsDriven s t ∧ (∀ u, ((t.port u).flightNotices[f]).state = true) ∧ DwellEnded f s (t.flight f) ∧
      ∀ seg rest, (s.flight f).queue = seg :: rest → seg.start = .follow →
        ¬(TargetsFit s f seg ∧ (seg.loadCheck = true → LoadsFit s f)) → ∀ u, ((t.port u).flightNotices[f]).reject = true

/-! ### The path -/

/-- The braking distance (03, R52). -/
def Obligations.BrakingDistanceSums : Prop :=
  ∀ a x : Nat, 1 ≤ a →
    brakingDistance a x = x / a * x - a * (x / a) * (x / a + 1) / 2 ∧
    brakingDistance a x = ((List.range (x / a)).map fun j => x - (j + 1) * a).sum ∧ brakingDistance a 0 = 0 ∧
    (x ≤ a → brakingDistance a x = 0) ∧ (a ≤ x → brakingDistance a x = (x - a) + brakingDistance a (x - a)) ∧
    (x ≤ 192000 → x / a * x < 2 ^ 36) ∧ brakingDistance 16 16 = 0 ∧ brakingDistance 16 32 = 16 ∧
    brakingDistance 16 48 = 48 ∧ brakingDistance 16 64 = 96

/-- The speed of a MOVING advance with path remaining: of the candidates up, same and down, in that order, the first and largest
that qualifies, and the creep speed where that is 0. The creep speed is at least 1 and at most a_dn_eff, v_eff and what remains,
and its braking distance is 0. At the next expiry the flight has come to the end of its path or chooses again in the same way from
the speed it now has (03, R54, R55). -/
def Obligations.SpeedChoice : Prop :=
  ∀ (act : Active) (remaining : Nat), 1 ≤ act.aUpEff → 1 ≤ act.aDnEff → 1 ≤ act.vEff → act.speed ≤ act.vEff →
    1 ≤ remaining →
    let chosen (speed remaining v : Nat) : Prop :=
      let up := min (speed + act.aUpEff) act.vEff
      let down := speed - act.aDnEff
      let fits (x : Nat) : Prop := x + brakingDistance act.aDnEff x ≤ remaining
      speed ≤ up ∧ down ≤ speed ∧ fits 0 ∧
      (∀ x, x = up ∨ x = speed ∨ x = down → fits x → x ≤ v) ∧
      ((v = up ∧ 1 ≤ v ∧ fits up) ∨ (v = speed ∧ 1 ≤ v ∧ ¬fits up ∧ fits speed) ∨
        (v = down ∧ 1 ≤ v ∧ ¬fits up ∧ ¬fits speed ∧ fits down) ∨
        (v = min remaining act.aDnEff ∧ brakingDistance act.aDnEff v = 0 ∧
          ∀ x, x = up ∨ x = speed ∨ x = down → fits x → x = 0)) ∧
      1 ≤ v ∧ v ≤ act.vEff ∧ v ≤ remaining ∧ brakingDistance act.aDnEff v ≤ remaining - v
    let v := movingSpeed act remaining
    chosen act.speed remaining v ∧
    (remaining - v = 0 ∨ chosen v (remaining - v) (movingSpeed (act.advanced v) (remaining - v)))

/-- A step expiry advances a MOVING flight whose claimer does not fall silent at it: short of the end it stays MOVING with the new
s and v, and its members' set-points are written; at the end the segment completes, with DONE raised on every port, into DWELL or,
with no dwell, on by the follow decision: into READY, into the FOLLOW record at the head, or into READY with that record rejected
(03, R43, R44, R53, R56; 02, R33, R35 to R37, R39; 04, R64). -/
def Obligations.ExpiryAdvancesMoving : Prop :=
  ∀ (f : FlightId) (act : Active) (s : State), s.timerRunning = true → (s.flight f).state = .moving →
    (s.flight f).active = some act → act.pos ≤ act.pathLen →
    (∀ st, (s.flight f).claim = some st → s.silents.get st = true ∨ (s.port st).silence < 249) →
    let v := if act.pos = act.pathLen then 0 else movingSpeed act (act.pathLen - act.pos)
    let next : Active := { act with pos := act.pos + v, speed := v }
    ∃ t, exec .stepExpiry s = .next t ∧ t.stepCounter = s.stepCounter + 1 ∧ t.links = s.links ∧ t.lines = s.lines ∧
      t.slots = s.slots ∧ t.enables = s.enables ∧
      (MembersUnshared f s → ∀ i n, (s.flight f).members.Nodup → (s.flight f).members[i]? = some n →
        (s.axis n).state ≠ .faulted → act.pathLen ≠ 0 →
        (t.axis n).setPoint =
          if act.pos = act.pathLen then (s.axis n).setPoint
          else act.starts.getD i 0 + (((displacements act.seg act.starts).getD i 0) * (next.pos : Int)).tdiv act.pathLen) ∧
      MovedRecord f act s t (t.flight f) ∧
      (next.pos = act.pathLen →
        (∀ u, ((t.port u).flightNotices[f]).done = true ∧ ((t.port u).flightNotices[f]).state = true) ∧
        (act.seg.recycle = true → 8 ≤ (s.flight f).queue.length → ∀ u, ((t.port u).flightNotices[f]).lost = true) ∧
        (act.seg.dwell = 0 → ∀ seg rest, recycledQueue act (s.flight f).queue = seg :: rest → seg.start = .follow →
          ¬(TargetsFit s f seg ∧ (seg.loadCheck = true → LoadsFit s f)) →
          ∀ u, ((t.port u).flightNotices[f]).reject = true))

/-- A step expiry advances a STOPPING flight by v − a_stop, whatever the path left, and writes its members' set-points: it lands
in HELD at rest, or at the end of its path with the completion's effects and no follow decision. A landing raises STATE, a
completion DONE, and a copy dropped at a full queue LOST, on every port (03, R58, R59; 02, R35 to R37; 04, R64; 05, R88). -/
def Obligations.ExpiryAdvancesStopping : Prop :=
  ∀ (f : FlightId) (act : Active) (a : Nat) (s : State), s.timerRunning = true → (s.flight f).state = .stopping →
    (s.flight f).active = some act → act.aStop = some a →
    (∀ st, (s.flight f).claim = some st → s.silents.get st = true ∨ (s.port st).silence < 249) →
    let v := act.speed - a
    let next : Active := { act with pos := act.pos + v, speed := v }
    ∃ t, exec .stepExpiry s = .next t ∧
      t.flight f = (s.flight f).afterStop act a ∧
      (next.pos = act.pathLen ∨ v = 0 → ∀ u, ((t.port u).flightNotices[f]).state = true) ∧
      (next.pos = act.pathLen → ∀ u, ((t.port u).flightNotices[f]).done = true) ∧
      (next.pos = act.pathLen → act.seg.recycle = true → 8 ≤ (s.flight f).queue.length →
        ∀ u, ((t.port u).flightNotices[f]).lost = true) ∧
      ∀ i n, (s.flight f).members.Nodup → (s.flight f).members[i]? = some n → (s.axis n).state ≠ .faulted →
        (∀ g, g ≠ f → n ∉ (s.flight g).members) → act.pathLen ≠ 0 →
        (t.axis n).setPoint =
          act.starts.getD i 0 + (((displacements act.seg act.starts).getD i 0) * (next.pos : Int)).tdiv act.pathLen

/-- What a step expiry does beside the flights: every ACTIVE station's silence counter counts up, to SILENT at 250; a round begins
with the lowest-numbered configured axis, or is pending behind one that runs; a WAITING scanner begins a scan; the phase of a
PULSED sounder counts, and changes at 125 (03, R42, R43; 06, R117; 07, R136, R138; 08, R144, R146, R148; 09, R170). A step expiry
counts the dwell or the arming timer of a flight down; a dwell that runs out makes the follow decision, and an arming timer that
runs out with a member still RELEASING trips its flight, naming the first such member. A FREE, PARKED, READY, HELD or TRIPPED
flight is left alone, but that a HELD flight whose claimer falls silent at the expiry records STATION_SILENT. Where the claimer
falls silent, an ARMING flight is aborted, and a DWELL, MOVING or STOPPING flight is held, before or after its count, its
running out or its advance (01, R15, R16; 02, R38, R39; 03, R43, R44, R62; 05, R86, R89; 06, R118, R120; log entry 7). -/
def Obligations.ExpiryReachesTheRest : Prop :=
  (∀ s : State, s.timerRunning = true →
    ∃ t, exec .stepExpiry s = .next t ∧ t.stepCounter = s.stepCounter + 1 ∧
      (∀ st, (s.silents.get st = true → (t.port st).silence = (s.port st).silence ∧ t.silents.get st = true) ∧
        (s.silents.get st = false → (s.port st).silence < 249 →
          (t.port st).silence = (s.port st).silence + 1 ∧ t.silents.get st = false) ∧
        (s.silents.get st = false → 249 ≤ (s.port st).silence →
          (t.port st).silence = 250 ∧ t.silents.get st = true)) ∧
      t.exchange = s.exchange ∧
      (s.round = .running → t.round = .running ∧ t.roundPending = true ∧ t.turn = s.turn) ∧
      (s.round = .idle → t.roundPending = s.roundPending ∧
        (∀ n, (s.axis n).state ≠ .unconfigured → (∀ k, k < n → (s.axis k).state = .unconfigured) →
          t.round = .running ∧ t.turn = some { axis := n, kind := .write }) ∧
        ((∀ n, (s.axis n).state = .unconfigured) → t.round = .idle ∧ t.turn = none)) ∧
      (s.scanState ≠ .waiting → t.scanState = s.scanState ∧ t.scanMode = s.scanMode) ∧
      (s.scanState = .waiting → s.scanMode = .step → t.scanMode = .step ∧
        t.scanState = if (s.slot 0).enabled then .scanning 0 else .waiting) ∧
      ∀ sounding count, s.sounder = .pulsed sounding count → (∃ f, (s.flight f).state = .tripped) →
        t.sounder = if 125 ≤ count + 1 then .pulsed (!sounding) 0 else .pulsed sounding (count + 1)) ∧
  ∀ (f : FlightId) (s : State), RigSound s → s.timerRunning = true →
    ∃ t, exec .stepExpiry s = .next t ∧
      ((∀ st, (s.flight f).claim = some st → s.silents.get st = true ∨ (s.port st).silence < 249) →
        (∀ d, (s.flight f).state = .dwell → (s.flight f).dwell = some d → 1 < d →
          t.flight f = { s.flight f with dwell := some (d - 1) }) ∧
        (∀ d, (s.flight f).state = .dwell → (s.flight f).dwell = some d → d ≤ 1 → DwellEnded f s (t.flight f)) ∧
        ((s.flight f).state = .held → t.flight f = s.flight f) ∧
        (∀ k, (s.flight f).state = .arming → (s.flight f).armTimer = some k → 1 < k →
          t.flight f = { s.flight f with armTimer := some (k - 1) }) ∧
        (∀ k before n after, (s.flight f).state = .arming → (s.flight f).armTimer = some k → k ≤ 1 →
          (s.flight f).members = before ++ n :: after → (s.axis n).state = .releasing →
          (∀ m ∈ before, (s.axis m).state ≠ .releasing) →
          t.flight f = { s.flight f with state := .tripped, dwell := none, armTimer := none,
                                         tripCause := some (.brakeTimeout n) } ∧
          ∀ m ∈ (s.flight f).members, t.axis m = (s.axis m).brakedDown)) ∧
      ((s.flight f).state = .free ∨ (s.flight f).state = .parked ∨ (s.flight f).state = .ready ∨
        (s.flight f).state = .tripped → t.flight f = s.flight f) ∧
      ∀ st, (s.flight f).claim = some st → s.silents.get st = false → 249 ≤ (s.port st).silence →
        (∀ k, (s.flight f).state = .arming → (s.flight f).armTimer = some k → 1 < k →
          t.flight f = { s.flight f with state := .parked, armTimer := none, holdCause := some .stationSilent }) ∧
        (∀ k before n after, (s.flight f).state = .arming → (s.flight f).armTimer = some k → k ≤ 1 →
          (s.flight f).members = before ++ n :: after → (s.axis n).state = .releasing →
          (∀ m ∈ before, (s.axis m).state ≠ .releasing) →
          (t.flight f = { s.flight f with state := .parked, armTimer := none, holdCause := some .stationSilent } ∨
            t.flight f = { s.flight f with state := .tripped, dwell := none, armTimer := none,
                                           tripCause := some (.brakeTimeout n) }) ∧
          ∀ m ∈ (s.flight f).members, t.axis m = (s.axis m).brakedDown) ∧
        ((s.flight f).state = .held → t.flight f = { s.flight f with holdCause := some .stationSilent }) ∧
        (∀ d, (s.flight f).state = .dwell → (s.flight f).dwell = some d → d ≤ 1 →
          t.flight f = { s.flight f with state := .held, holdCause := some .stationSilent } ∨
            ∃ r, DwellEnded f s r ∧ t.flight f = r.afterHold .stationSilent) ∧
        (∀ d, (s.flight f).state = .dwell → (s.flight f).dwell = some d → 1 < d →
          t.flight f = { s.flight f with state := .held, holdCause := some .stationSilent } ∨
            t.flight f = { s.flight f with state := .held, dwell := some (d - 1), holdCause := some .stationSilent }) ∧
        (∀ act, (s.flight f).state = .moving → (s.flight f).active = some act → act.pos ≤ act.pathLen →
          (∃ r, MovedRecord f act s t r ∧ t.flight f = r.afterHold .stationSilent) ∨
            let held : Active := { act with aStop := some (max act.aDnEff act.aHoldEff) }
            t.flight f = { s.flight f with state := .stopping, holdCause := some .stationSilent, active := some held }.afterStop
              held (max act.aDnEff act.aHoldEff)) ∧
        ∀ act a, (s.flight f).state = .stopping → (s.flight f).active = some act → act.aStop = some a →
          t.flight f = { (s.flight f).afterStop act a with holdCause := some .stationSilent }

/-- Every interpolated set-point lies between a member's start and its target, both inclusive, moves toward the target as s grows,
and is the target at the end of the path (04, R64, R65). -/
def Obligations.SetPointsStayBetween : Prop :=
  ∀ (act : Active) (i : Nat) (start target : Int), act.pathLen = pathLength (displacements act.seg act.starts) →
    0 < act.pathLen → act.pos ≤ act.pathLen → act.starts[i]? = some start →
    target = (match act.seg.target i with | some x => x | none => start) →
    min start target ≤ setPointAt act i ∧ setPointAt act i ≤ max start target ∧
    (act.pos = act.pathLen → setPointAt act i = target) ∧ (act.pos = 0 → setPointAt act i = start) ∧
    (16 * (target - start).natAbs = act.pathLen →
      setPointAt act i = start + (target - start).sign * ((act.pos / 16 : Nat) : Int)) ∧
    ∀ pos, act.pos ≤ pos → pos ≤ act.pathLen →
      (setPointAt act i - start).natAbs ≤ (setPointAt { act with pos := pos } i - start).natAbs

/-! ### Holds, trips and recovery -/

/-- HOLD and HOLD-ALL from any station, by the state each flight is in (05, R83 to R86; 03, R57). A request row's frame is heard
first, and its reply replaces what the transmitter held (log entries 2 and 3). -/
def Obligations.HoldTable : Prop :=
  ∀ (st : Station) (s : State), s.resetAsserted = false →
    (∀ flight : Byte, 6 ≤ flight.toNat → exec (.hold st flight) s = .next (answer st kindHold .badParameter s)) ∧
    (∀ (flight : Byte) (f : FlightId), NamesFlight flight f →
      ∃ t, exec (.hold st flight) s = .next t ∧
        t.flight f =
          (match (s.flight f).state with
          | .free | .parked | .arming | .ready | .tripped => s.flight f
          | .moving =>
            { s.flight f with
                state := .stopping, holdCause := some (.stationHold st)
                active := (s.flight f).active.map fun a => { a with aStop := some (max a.aDnEff a.aHoldEff) } }
          | .dwell => { s.flight f with state := .held, holdCause := some (.stationHold st) }
          | .stopping | .held => { s.flight f with holdCause := some (.stationHold st) }) ∧
        OtherFlightsKept f s t ∧ t.axes = s.axes ∧ OnlyMotionChanged (markHeard st s) t ∧
        if (s.flight f).state = .moving ∨ (s.flight f).state = .dwell then
          t.ports = (reply st kindHold .done (raiseState f (markHeard st s))).ports ∧ OutputsDriven s t
        else t.ports = (answer st kindHold .done s).ports ∧ OutputsKept s t) ∧
    ∃ t, exec (.holdAll st) s = .next t ∧ t.axes = s.axes ∧ OnlyMotionChanged (markHeard st s) t ∧
      (∀ f, t.flight f = (s.flight f).afterHold (.holdAllStation st)) ∧
      (if ∃ f, (s.flight f).state = .moving ∨ (s.flight f).state = .dwell then OutputsDriven s t else OutputsKept s t) ∧
      ∀ u, t.port u = ((answer st kindHoldAll .done s).port u).stateRaised fun f =>
        decide ((s.flight f).state = .moving ∨ (s.flight f).state = .dwell)

/-- STOP from any station, of one flight or with 0xFF of all six, by the state each flight is in (05, R94, R95, R97; 01, R11). A
request row's frame is heard first, and its reply replaces what the transmitter held (log entries 2 and 3). -/
def Obligations.TripTable : Prop :=
  ∀ (st : Station) (s : State), s.resetAsserted = false →
    (∀ flight : Byte, 6 ≤ flight.toNat → flight ≠ 0xFF →
      exec (.stop st flight) s = .next (answer st kindStop .badParameter s)) ∧
    (∀ (flight : Byte) (f : FlightId), NamesFlight flight f →
      ∃ t, exec (.stop st flight) s = .next t ∧ OtherFlightsKept f s t ∧ OnlyMotionChanged (markHeard st s) t ∧
        match (s.flight f).state with
        | .free => t = answer st kindStop .done s
        | .tripped => t = reply st kindStop .done ((markHeard st s).updFlight f fun r => { r with furtherTrips := true })
        | .parked | .arming | .ready | .moving | .dwell | .stopping | .held =>
          t.flight f = { s.flight f with state := .tripped, dwell := none, armTimer := none,
                                         tripCause := some (.stationStop st) } ∧
          (∀ n, t.axis n = if n ∈ (s.flight f).members then (s.axis n).brakedDown else s.axis n) ∧
          t.ports = (reply st kindStop .done (raiseState f (markHeard st s))).ports ∧ OutputsDriven s t) ∧
    ∃ t, exec (.stop st 0xFF) s = .next t ∧ OnlyMotionChanged (markHeard st s) t ∧
      (∀ f, t.flight f = (s.flight f).afterTrip (.stationStop st)) ∧
      (if ∃ f, (s.flight f).state ≠ .free ∧ (s.flight f).state ≠ .tripped then OutputsDriven s t else OutputsKept s t) ∧
      (∀ u, t.port u = ((answer st kindStop .done s).port u).stateRaised fun f =>
        decide ((s.flight f).state ≠ .free ∧ (s.flight f).state ≠ .tripped)) ∧
      ∀ n, ((∃ f, (s.flight f).state ≠ .free ∧ (s.flight f).state ≠ .tripped ∧ n ∈ (s.flight f).members) →
          t.axis n = (s.axis n).brakedDown) ∧
        ((¬∃ f, (s.flight f).state ≠ .free ∧ (s.flight f).state ≠ .tripped ∧ n ∈ (s.flight f).members) →
          t.axis n = s.axis n)

/-- RESUME by a claimer that may start, with no persisting condition: BAD_STATE away from HELD, otherwise on by what the HELD
flight holds (05, R89 to R91). A request row's frame is heard first, and its reply replaces what the transmitter held (log entries
2 and 3). -/
def Obligations.ResumeGoesOn : Prop :=
  ∀ (st : Station) (flight : Byte) (f : FlightId) (s : State), NamesFlight flight f → s.resetAsserted = false →
    (s.flight f).claim = some st → s.enables.get st = true →
    (∀ i l, s.link i = some l → l.Targets f → ¬l.ConditionTrue s) →
    if (s.flight f).state ≠ .held then exec (.resume st flight) s = .next (answer st kindResume .badState s)
    else
      ∃ t, exec (.resume st flight) s = .next t ∧ OtherFlightsKept f s t ∧ t.axes = s.axes ∧
        t.ports = (reply st kindResume .done (raiseState f (markHeard st s))).ports ∧ OutputsDriven s t ∧
        OnlyMotionChanged (markHeard st s) t ∧
        t.flight f =
          match (s.flight f).active, (s.flight f).dwell with
          | some act, _ => { s.flight f with state := .moving, active := some { act with speed := 0, aStop := none } }
          | none, some _ => { s.flight f with state := .dwell }
          | none, none => { s.flight f with state := .ready }

/-- CANCEL (05, R92). A request row's frame is heard first, and its reply replaces what the transmitter held (log entries 2 and
3). -/
def Obligations.CancelRule : Prop :=
  ∀ (st : Station) (flight : Byte) (f : FlightId) (s : State), NamesFlight flight f → s.resetAsserted = false →
    if (s.flight f).claim ≠ some st then exec (.cancel st flight) s = .next (answer st kindCancel .notClaimed s)
    else if (s.flight f).state ≠ .held then exec (.cancel st flight) s = .next (answer st kindCancel .badState s)
    else
      ∃ t, exec (.cancel st flight) s = .next t ∧
        t.flight f = { s.flight f with state := .ready, active := none, dwell := none } ∧ OtherFlightsKept f s t ∧
        t.axes = s.axes ∧ t.ports = (reply st kindCancel .done (raiseState f (markHeard st s))).ports ∧ OutputsDriven s t ∧
        OnlyMotionChanged (markHeard st s) t

/-- RESET-FLIGHT by the claimer with no persisting condition: BAD_STATE away from TRIPPED, AXIS_FAULT while a member's drive
reports FAULT or its missed streak is 3, otherwise PARKED with its FAULTED members BRAKED (05, R99, R100). A request row's frame
is heard first, and its reply replaces what the transmitter held (log entries 2 and 3). -/
def Obligations.ResetFlightParks : Prop :=
  ∀ (st : Station) (flight : Byte) (f : FlightId) (s : State), NamesFlight flight f → s.resetAsserted = false →
    (s.flight f).claim = some st → (∀ i l, s.link i = some l → l.Targets f → ¬l.ConditionTrue s) →
    if (s.flight f).state ≠ .tripped then exec (.resetFlight st flight) s = .next (answer st kindResetFlight .badState s)
    else if ∃ n ∈ (s.flight f).members,
        (∃ b, (s.axis n).driveStatus = some b ∧ b.getLsbD 6 = true) ∨ (s.axis n).missedStreak = 3 then
      exec (.resetFlight st flight) s = .next (answer st kindResetFlight .axisFault s)
    else
      ∃ t, exec (.resetFlight st flight) s = .next t ∧
        t.flight f = { s.flight f with state := .parked, active := none, tripCause := none, furtherTrips := false } ∧
        OtherFlightsKept f s t ∧
        (∀ n, t.axis n =
          if n ∈ (s.flight f).members then
            if (s.axis n).state = .faulted then { s.axis n with state := .braked, faultCause := none }
            else (s.axis n).brakedDown
          else s.axis n) ∧
        t.ports = (reply st kindResetFlight .done (raiseState f (markHeard st s))).ports ∧ OutputsDriven s t ∧
        OnlyMotionChanged (markHeard st s) t

/-! ### The axis bus -/

/-- EXCHANGE_START forms the bytes of the due exchange from the state at that moment; WRITE_COMPLETE records what the write
carried, sets the write streak to 0 and leaves the missed streak; a discarded write stores nothing (07, R125 to R128, R136). -/
def Obligations.WritesOnTheBus : Prop :=
  (∀ (x : Turn) (p : AxisParams) (s : State), s.resetAsserted = false → s.exchange = none → s.turn = some x →
    (s.axis x.axis).params = some p →
    let payload := wordBytes (BitVec.ofInt 32 (s.axis x.axis).setPoint) ++
      [(if s.brake x.axis then 0x80 else 0) + (if (s.axis x.axis).state = .faulted then 0x40 else 0)]
    let bytes : List Byte :=
      match x.kind with
      | .write => (p.address ++ 0#1) :: payload ++ [~~~ payload.sum]
      | .read => [p.address ++ 1#1]
    exec .exchangeStart s = .next { s with
      exchange := some { axis := x.axis, kind := x.kind, address := p.address, bytes := bytes, discarded := false } }) ∧
  ∀ (n : AxisId) (address : BitVec 7) (setPoint : Word) (control first check : Byte) (discarded : Bool) (s : State),
    s.resetAsserted = false →
    s.exchange = some { axis := n, kind := .write, address := address, discarded := discarded,
                        bytes := first :: wordBytes setPoint ++ [control, check] } →
    exec .writeComplete s = .next
      { (if discarded then s
         else s.updAxis n fun a =>
           { a with lastWrite := some { setPoint := setPoint.toInt, release := control.getLsbD 7 }, writeStreak := 0 }) with
          exchange := none, turn := some { axis := n, kind := .read } }

/-- A missed exchange counts in the axis's streaks by the axis's state, and faults an axis whose missed streak, or whose write
streak at a write, comes to 3, with DRIVE_SILENT; the turn passes on. MISSED_EXCHANGE and a failed read check miss the exchange in
progress, ANSWER_HOLD_TIMEOUT the read in progress, HELD_LINE the exchange that is due. A discarded exchange stores nothing and
changes neither streak, whether it completed or missed (07, R125, R129 to R136, R138). -/
def Obligations.MissesCount : Prop :=
  (∀ (c : Instr) (x : Turn) (s : State), s.resetAsserted = false →
     ((c = .heldLine ∧ s.exchange = none ∧ s.turn = some x) ∨
       ∃ e, s.exchange = some e ∧ e.turn = x ∧ e.discarded = false ∧
         (c = .missedExchange ∨ (c = .answerHoldTimeout ∧ x.kind = .read) ∨
           ∃ position status check, c = .readComplete position status check ∧ x.kind = .read ∧
             check ≠ ~~~ (wordBytes position ++ [status]).sum)) →
     let a := s.axis x.axis
     let faults := (a.state = .braked ∨ a.state = .releasing ∨ a.state = .following) ∧
       (missedStreakAfter a = 3 ∨ (x.kind = .write ∧ writeStreakAfter a x.kind = 3))
     let counted := { a with missedStreak := missedStreakAfter a, writeStreak := writeStreakAfter a x.kind }
     ∃ t, exec c s = .next t ∧ TurnPassed x s t ∧
       (faults → t.axis x.axis = { counted with state := .faulted, faultCause := some .driveSilent } ∧
         t.brake x.axis = false ∧ t.faultLine = true) ∧
       (¬faults → t.axis x.axis = counted ∧ (∀ m, m ≠ x.axis → t.axis m = s.axis m) ∧ t.flights = s.flights ∧
         t.ports = s.ports ∧ OutputsKept s t) ∧
       (∀ f, t.flight f =
         if faults ∧ a.flight = some f then (s.flight f).afterTrip (.axisFault .driveSilent x.axis) else s.flight f)) ∧
  ∀ (c : Instr) (e : Exchange) (s : State), s.resetAsserted = false → s.exchange = some e → e.discarded = true →
    (c = .missedExchange ∨ (c = .writeComplete ∧ e.kind = .write) ∨ (c = .answerHoldTimeout ∧ e.kind = .read) ∨
      ∃ position status check, c = .readComplete position status check ∧ e.kind = .read) →
    ∃ t, exec c s = .next t ∧ TurnPassed e.turn s t ∧
      t = { s with exchange := none, turn := t.turn, round := t.round, roundPending := t.roundPending }

/-- A completed read is stored, sets the missed streak to 0 and is judged by the state of its axis. A check that fails takes the
axis to FAULTED with the check's cause and trips its flight; where the command right behind the read of a released member trips
the flight too, with the axis already FAULTED, that trip may meet the flight first (R78; a free value, log entry 27); a BRAKED axis that is unbound or of a FREE or
PARKED flight follows its rope; a RELEASING axis whose brake is confirmed goes FOLLOWING, and its flight READY with the last one
(01, R3, R4, R14; 04, R67 to R77; 07, R130). -/
def Obligations.ReadsAreJudged : Prop :=
  ∀ (e : Exchange) (p : AxisParams) (position : Word) (status : Byte) (s : State), s.resetAsserted = false →
    s.exchange = some e → e.kind = .read → e.discarded = false → (s.axis e.axis).params = some p →
    (s.axis e.axis).state ≠ .unconfigured →
    let n := e.axis
    let a := s.axis n
    let verdict := readVerdict a p position.toInt (status.getLsbD 6) (status.getLsbD 5)
    let stored := { a with measured := some position.toInt, driveStatus := some status, missedStreak := 0 }
    let confirmed := a.state = .releasing ∧ status.getLsbD 5 = true
    let lastOne (f : FlightId) := (s.flight f).state = .arming ∧
      ∀ m ∈ (s.flight f).members, m ≠ n → (s.axis m).state ≠ .releasing
    ∃ t, exec (.readComplete position status (~~~ (wordBytes position ++ [status]).sum)) s = .next t ∧
      TurnPassed e.turn s t ∧
      match verdict with
      | some cause =>
        t.axis n = { stored with state := .faulted, faultCause := some cause } ∧ t.brake n = false ∧
        t.faultLine = true ∧
        ∀ f, (a.flight ≠ some f → t.flight f = s.flight f) ∧
          (a.flight = some f → t.flight f = (s.flight f).afterTrip (.axisFault cause n) ∨
            ∃ c rest m u other, a.released = true ∧ s.pending = c :: rest ∧
              m.axis n = { stored with state := .faulted, faultCause := some cause } ∧
              (∀ k, k ≠ n → m.axis k = s.axis k) ∧ OutputsDriven s m ∧ TurnPassed e.turn s m ∧
              m = { s with axes := m.axes, exchange := none, turn := m.turn, round := m.round, roundPending := m.roundPending,
                           brakes := m.brakes, sounder := m.sounder, faultLine := m.faultLine } ∧
              exec c { m with pending := rest } = .next u ∧ (s.flight f).state ≠ .tripped ∧
              (u.flight f).state = .tripped ∧ (u.flight f).tripCause = some other ∧
              t.flight f = ((s.flight f).afterTrip other).afterTrip (.axisFault cause n))
      | none =>
        (a.state = .braked → t.flights = s.flights ∧
          t.axis n = if ∀ f, a.flight = some f → (s.flight f).state = .free ∨ (s.flight f).state = .parked then
            { stored with setPoint := position.toInt } else stored) ∧
        (a.state ≠ .braked → t.axis n = if confirmed then { stored with state := .following } else stored) ∧
        (∀ m, m ≠ n → t.axis m = s.axis m) ∧
        ∀ f, t.flight f =
          if confirmed ∧ a.flight = some f ∧ lastOne f then { s.flight f with state := .ready, armTimer := none }
          else s.flight f

/-! ### The tension scanner -/

/-- SET-SLOT and SCAN (08, R147, R154). A request row's frame is heard first, and its reply replaces what the transmitter held
(log entries 2 and 3). -/
def Obligations.ScannerSettings : Prop :=
  (∀ (st : Station) (slot input enabled : Byte) (tare high low slack : Half) (s : State), s.resetAsserted = false →
    if 8 ≤ slot.toNat ∨ 8 ≤ input.toNat ∨ 2 ≤ enabled.toNat ∨ 4095 < tare.toNat ∨ high.toInt < -4095 ∨
        4095 < high.toInt ∨ low.toInt < -4095 ∨ 4095 < low.toInt ∨ slack.toInt < -4095 ∨ 4095 < slack.toInt ∨
        high.toInt < low.toInt then
      exec (.setSlot st slot input enabled tare high low slack) s = .next (answer st kindSetSlot .badParameter s)
    else if s.scanState ≠ .stopped then
      exec (.setSlot st slot input enabled tare high low slack) s = .next (answer st kindSetSlot .scannerRunning s)
    else
      ∃ (k : SlotId) (lc : Fin 8), slot.toNat = k.val ∧ input.toNat = lc.val ∧
        exec (.setSlot st slot input enabled tare high low slack) s = .next (reply st kindSetSlot .done
          ((markHeard st s).updSlot k fun r =>
            { r with input := lc, enabled := decide (enabled = 1), tare := tare.toNat, high := high.toInt,
                     low := low.toInt, slack := slack.toInt }))) ∧
  ∀ (st : Station) (mode : Byte) (s : State), s.resetAsserted = false →
    exec (.scan st mode) s = .next (
      match mode.toNat with
      | 0 => reply st kindScan .done { markHeard st s with scanMode := .stopped, scanState := .stopped }
      | 1 =>
        if (s.slot 0).enabled then reply st kindScan .done { markHeard st s with scanMode := .once, scanState := .scanning 0 }
        else reply st kindScan .done { markHeard st s with scanMode := .stopped, scanState := .stopped }
      | 2 =>
        if (s.slot 0).enabled then reply st kindScan .done { markHeard st s with scanMode := .continuous, scanState := .scanning 0 }
        else reply st kindScan .done { markHeard st s with scanMode := .stopped, scanState := .stopped }
      | 3 => reply st kindScan .done { markHeard st s with scanMode := .step, scanState := .waiting }
      | _ => answer st kindScan .badParameter s)

/-- INJECT is refused for a slot number outside 0 to 7 and while the scanner is not STOPPED. Otherwise it and CONVERSION_COMPLETE
give a slot its new result: raw, tared, valid, origin, the two levels, and the fresh flag on every port; other slots keep theirs,
and after a conversion the scan goes on or ends. With no link on the slot nothing else happens; the one link on it acts once, by
its action, where the result makes its OVER or UNDER level true or gives its slack edge, and else not at all (08, R144, R146, R149
to R153, R155; 09, R165, R166). A request row's frame is heard first, and its reply replaces what the transmitter held (log
entries 2 and 3). -/
def Obligations.ResultsAreJudged : Prop :=
  (∀ (st : Station) (slot : Byte) (raw : Half) (s : State), s.resetAsserted = false →
    (8 ≤ slot.toNat → exec (.inject st slot raw) s = .next (answer st kindInject .badParameter s)) ∧
    (slot.toNat < 8 → s.scanState ≠ .stopped →
      exec (.inject st slot raw) s = .next (answer st kindInject .scannerRunning s))) ∧
  (∀ (st : Station) (slot : Byte) (raw : Half) (k : SlotId) (s : State), s.resetAsserted = false →
    slot.toNat = k.val → s.scanState = .stopped →
    let reading := min raw.toNat 4095
    let tared : Int := reading - (s.slot k).tare
    let result := { s.slot k with raw := reading, tared := tared, valid := true, origin := .injected,
                                  isOver := decide ((s.slot k).high < tared), isUnder := decide (tared < (s.slot k).low) }
    (∃ t, exec (.inject st slot raw) s = .next t ∧ t.slot k = result ∧ (∀ q, q ≠ k → t.slot q = s.slot q) ∧
      (∀ u, (t.port u).fresh[k] = true) ∧ t.scanMode = s.scanMode ∧ t.scanState = s.scanState) ∧
    (NoLinkOn (.slot k) s →
      exec (.inject st slot raw) s = .next (reply st kindInject .done (raiseFresh k ((markHeard st s).updSlot k fun _ => result)))) ∧
    ∀ (i : LinkId) (l : Link), SoleLink i l s → l.source = .slot k → l.Requests →
      ∃ t, exec (.inject st slot raw) s = .next (reply st kindInject .done t) ∧
        l.MetEvent i (l.cond.OnResult (s.slot k) result) (raiseFresh k ((markHeard st s).updSlot k fun _ => result)) t) ∧
  ∀ (raw : BitVec 12) (k : SlotId) (s : State), s.resetAsserted = false → s.scanState = .scanning k →
    let tared : Int := raw.toNat - (s.slot k).tare
    let result := { s.slot k with raw := raw.toNat, tared := tared, valid := true, origin := .converted,
                                  isOver := decide ((s.slot k).high < tared), isUnder := decide (tared < (s.slot k).low) }
    let u := raiseFresh k (s.updSlot k fun _ => result)
    let scanned : State :=
      if h : k.val + 1 < 8 ∧ ∃ q : SlotId, q.val = k.val + 1 ∧ (s.slot q).enabled = true then
        { u with scanState := .scanning ⟨k.val + 1, h.1⟩ }
      else
        match s.scanMode with
        | .step => { u with scanState := .waiting }
        | .continuous =>
          if (s.slot 0).enabled then { u with scanState := .scanning 0 }
          else { u with scanMode := .stopped, scanState := .stopped }
        | .once | .stopped => { u with scanMode := .stopped, scanState := .stopped }
    (NoLinkOn (.slot k) s → exec (.conversionComplete raw) s = .next scanned) ∧
    ∀ (i : LinkId) (l : Link), SoleLink i l s → l.source = .slot k → l.Requests →
      ∃ t, exec (.conversionComplete raw) s = .next t ∧ l.MetEvent i (l.cond.OnResult (s.slot k) result) scanned t

/-! ### Reflex links and sense lines -/

/-- SET-LINK is refused where its link number is outside 0 to 23, and where its fields are the codes of no link whose condition
its source and its action allow; otherwise it writes the entry whole and in use. A new level link whose condition is true holds or
trips its target at once; a link whose condition is not true acts on nothing; an ENABLE_STATION link has its station's enable
computed again with the new link in place, and an enable loss restrains that station's flights. Over an entry that was an
ENABLE_STATION link, the enable that the old link counted in is computed again as well, before or after the new link acts or the
new link's own station is computed (06, R113 to R115; 09, R163, R165, R166; 10, R180; either order: log entry 19). A request row's
frame is heard first, and its reply replaces what the transmitter held (log entries 2 and 3). -/
def Obligations.SetLinkWrites : Prop :=
  (∀ (st : Station) (link source cond action target : Byte) (s : State), s.resetAsserted = false →
    24 ≤ link.toNat ∨
      (∀ l : Link, source = l.source.byte → cond = l.cond.byte → [action, target] = l.action.codes →
        l.cond.fits l.source = true → l.action.allows l.cond = false) →
    exec (.setLink st link source cond action target) s = .next (answer st kindSetLink .badParameter s)) ∧
  (∀ (st : Station) (link source cond action target : Byte) (i : LinkId) (l : Link) (s : State),
    s.resetAsserted = false → link.toNat = i.val → source = l.source.byte → cond = l.cond.byte →
    [action, target] = l.action.codes → l.cond.fits l.source = true → l.action.allows l.cond = true →
    (∀ old u, s.link i = some old → old.action ≠ .enableStation u) →
    let written := (markHeard st s).setLink i (some l)
    let done (r : State) := exec (.setLink st link source cond action target) s = .next (reply st kindSetLink .done r)
    match l.action with
    | .holdFlight f =>
      (l.ConditionTrue s → done (holdFlight f (.linkHold i) written)) ∧ (¬l.ConditionTrue s → done written)
    | .tripFlight f =>
      (l.ConditionTrue s → done (tripFlight f (.linkTrip i) written)) ∧ (¬l.ConditionTrue s → done written)
    | .holdAll =>
      (l.ConditionTrue s → ∃ t, done t ∧ t.links = written.links ∧ ∀ f, t.flight f = (s.flight f).afterHold (.holdAllLink i)) ∧
      (¬l.ConditionTrue s → done written)
    | .tripAll =>
      (l.ConditionTrue s → ∃ t, done t ∧ t.links = written.links ∧ ∀ f, t.flight f = (s.flight f).afterTrip (.linkTrip i)) ∧
      (¬l.ConditionTrue s → done written)
    | .cueFlight _ => done written
    | .enableStation u => ∃ t, done t ∧ EnableComputed u written t) ∧
  ∀ (st : Station) (link source cond action target : Byte) (i : LinkId) (old l : Link) (u : Station) (s : State),
    s.resetAsserted = false → link.toNat = i.val → source = l.source.byte → cond = l.cond.byte →
    [action, target] = l.action.codes → l.cond.fits l.source = true → l.action.allows l.cond = true →
    s.link i = some old → old.action = .enableStation u →
    let written := (markHeard st s).setLink i (some l)
    let chosen : State := { written with freeIndex := written.freeIndex + 1 }
    let done (r : State) := exec (.setLink st link source cond action target) s = .next (reply st kindSetLink .done r)
    let computedAnd (act : State → State) :=
      ∃ m t, done t ∧ ((EnableComputed u chosen m ∧ t = act m) ∨ (m = act chosen ∧ EnableComputed u m t))
    match l.action with
    | .holdFlight f =>
      (l.ConditionTrue s → computedAnd (holdFlight f (.linkHold i))) ∧
      (¬l.ConditionTrue s → ∃ t, done t ∧ EnableComputed u written t)
    | .tripFlight f =>
      (l.ConditionTrue s → computedAnd (tripFlight f (.linkTrip i))) ∧
      (¬l.ConditionTrue s → ∃ t, done t ∧ EnableComputed u written t)
    | .holdAll =>
      ∃ t, done t ∧ t.links = written.links ∧ (t.enables.get u = true ↔ EnableHolds u written) ∧
        (∀ w, w ≠ u → t.enables.get w = s.enables.get w) ∧ (¬l.ConditionTrue s → EnableComputed u written t) ∧
        (l.ConditionTrue s → ∀ f, (t.flight f).state ≠ .moving ∧ (t.flight f).state ≠ .dwell)
    | .tripAll =>
      ∃ t, done t ∧ t.links = written.links ∧ (t.enables.get u = true ↔ EnableHolds u written) ∧
        (∀ w, w ≠ u → t.enables.get w = s.enables.get w) ∧ (¬l.ConditionTrue s → EnableComputed u written t) ∧
        (l.ConditionTrue s → ∀ f, (t.flight f).state = .free ∨ (t.flight f).state = .tripped)
    | .cueFlight _ => ∃ t, done t ∧ EnableComputed u written t
    | .enableStation w =>
      (w = u → ∃ t, done t ∧ EnableComputed u written t) ∧
      (w ≠ u → ∃ m t, done t ∧ ((EnableComputed u chosen m ∧ EnableComputed w m t) ∨
        (EnableComputed w chosen m ∧ EnableComputed u m t)))

/-- A raw change of an unsettled line leaves it unsettled while its filter is on and settles it at once while it is off. A raw
change of a settled line is pending while the filter is on and accepted at once while it is off; FILTER_ACCEPT accepts the pending
level with its flags on every port; LINE_SETTLE settles a line with no flag. With no link on the line nothing else happens; the
one link on it acts once, by its action, at an accepted change that is its edge or makes its level true, and at a settling that
makes its level true, and else not at all (09, R158, R159, R161, R165, R166). -/
def Obligations.SenseLinesFilter : Prop :=
  (∀ (n : LineId) (level : Level) (s : State), s.resetAsserted = false → (s.line n).raw ≠ level →
    (s.line n).filtered = none →
    if (s.line n).filterOn then exec (.rawLevelChange n level) s = .next (s.updLine n fun l => { l with raw := level })
    else
      let settled := s.updLine n fun l => { l with raw := level, filtered := some level, pending := none }
      (NoLinkOn (.line n) s → exec (.rawLevelChange n level) s = .next settled) ∧
      ∀ (i : LinkId) (l : Link), SoleLink i l s → l.source = .line n → l.Requests →
        ∃ t, exec (.rawLevelChange n level) s = .next t ∧ l.MetEvent i (l.cond.OnSettling level) settled t) ∧
  (∀ (n : LineId) (level old : Level) (s : State), s.resetAsserted = false → (s.line n).raw ≠ level →
    (s.line n).filtered = some old →
    if (s.line n).filterOn then
      exec (.rawLevelChange n level) s =
        .next (s.updLine n fun l => { l with raw := level, pending := if old = level then none else some level })
    else if old = level then exec (.rawLevelChange n level) s = .next (s.updLine n fun l => { l with raw := level })
    else
      let accepted := raiseLineChange n (s.updLine n fun l => { l with raw := level, filtered := some level, pending := none })
      (NoLinkOn (.line n) s → exec (.rawLevelChange n level) s = .next accepted) ∧
      ∀ (i : LinkId) (l : Link), SoleLink i l s → l.source = .line n → l.Requests →
        ∃ t, exec (.rawLevelChange n level) s = .next t ∧ l.MetEvent i (l.cond.OnChange level) accepted t) ∧
  (∀ (n : LineId) (old level : Level) (s : State), s.resetAsserted = false → (s.line n).filterOn = true →
    (s.line n).filtered = some old → (s.line n).pending = some level →
    let accepted := raiseLineChange n (s.updLine n fun l => { l with filtered := some level, pending := none })
    (NoLinkOn (.line n) s → exec (.filterAccept n) s = .next accepted) ∧
    ∀ (i : LinkId) (l : Link), old ≠ level → SoleLink i l s → l.source = .line n → l.Requests →
      ∃ t, exec (.filterAccept n) s = .next t ∧ l.MetEvent i (l.cond.OnChange level) accepted t) ∧
  ∀ (n : LineId) (s : State), s.resetAsserted = false → (s.line n).filtered = none →
    let settled := s.updLine n fun l => { l with filtered := some l.raw, pending := none }
    (NoLinkOn (.line n) s → exec (.lineSettle n) s = .next settled) ∧
    ∀ (i : LinkId) (l : Link), SoleLink i l s → l.source = .line n → l.Requests →
      ∃ t, exec (.lineSettle n) s = .next t ∧ l.MetEvent i (l.cond.OnSettling (s.line n).raw) settled t

/-- CLEAR-LINK takes an entry out of use; where it was an ENABLE_STATION link the enable is computed again without it. At an event
of a source whose only link is an ENABLE_STATION link the station's enable is computed again over the new level: at an accepted
change, with the filter on or off, at a settling, and at a new result, injected or converted, that changes a level. A change from
true to false restrains the flights the station claims. Where an e-stop line falls that both enables a station and, on LOW, trips
all, every flight meets the trip and, where the station claims it, the enable loss before or after it (06, R113 to R115; 08, R153;
09, R158, R159, R161, R164, R168; the e-stop example of 09, section 9.3). A request row's frame is heard first, and its reply
replaces what the transmitter held (log entries 2 and 3). -/
def Obligations.EnablesComputedAgain : Prop :=
  (∀ (st : Station) (link : Byte) (s : State), s.resetAsserted = false →
    (24 ≤ link.toNat → exec (.clearLink st link) s = .next (answer st kindClearLink .badParameter s)) ∧
    ∀ i : LinkId, link.toNat = i.val →
      ((∀ l u, s.link i = some l → l.action ≠ .enableStation u) →
        exec (.clearLink st link) s = .next (reply st kindClearLink .done ((markHeard st s).setLink i none))) ∧
      ∀ l u, s.link i = some l → l.action = .enableStation u →
        ∃ t, exec (.clearLink st link) s = .next (reply st kindClearLink .done t) ∧
          EnableComputed u ((markHeard st s).setLink i none) t) ∧
  (∀ (i : LinkId) (l : Link) (u : Station) (s : State), s.resetAsserted = false → SoleLink i l s →
    l.action = .enableStation u →
    (∀ n old level, l.source = .line n → (s.line n).filterOn = true → (s.line n).filtered = some old →
      (s.line n).pending = some level →
      ∃ t, exec (.filterAccept n) s = .next t ∧ EnableComputed u
        (raiseLineChange n (s.updLine n fun x => { x with filtered := some level, pending := none })) t) ∧
    (∀ n old level, l.source = .line n → (s.line n).filterOn = false → (s.line n).filtered = some old → old ≠ level →
      (s.line n).raw ≠ level →
      ∃ t, exec (.rawLevelChange n level) s = .next t ∧ EnableComputed u
        (raiseLineChange n (s.updLine n fun x => { x with raw := level, filtered := some level, pending := none })) t) ∧
    (∀ n, l.source = .line n → (s.line n).filtered = none →
      ∃ t, exec (.lineSettle n) s = .next t ∧
        EnableComputed u (s.updLine n fun x => { x with filtered := some x.raw, pending := none }) t) ∧
    ∀ k, l.source = .slot k →
      let judged (raw : Nat) (origin : Origin) : Slot :=
        let tared : Int := raw - (s.slot k).tare
        { s.slot k with raw := raw, tared := tared, valid := true, origin := origin,
                        isOver := decide ((s.slot k).high < tared), isUnder := decide (tared < (s.slot k).low) }
      let changes (r : Slot) := r.isOver ≠ (s.slot k).isOver ∨ r.isUnder ≠ (s.slot k).isUnder
      (∀ st slot (raw : Half), slot.toNat = k.val → s.scanState = .stopped →
        let r := judged (min raw.toNat 4095) .injected
        let base := raiseFresh k ((markHeard st s).updSlot k fun _ => r)
        ∃ t, exec (.inject st slot raw) s = .next (reply st kindInject .done t) ∧
          (changes r → EnableComputed u base t) ∧ (¬changes r → t = base)) ∧
      ∀ raw : BitVec 12, s.scanState = .scanning k →
        let r := judged raw.toNat .converted
        let base := raiseFresh k (s.updSlot k fun _ => r)
        ∃ t, exec (.conversionComplete raw) s = .next t ∧
          let scanned : State := { base with scanMode := t.scanMode, scanState := t.scanState }
          (changes r → EnableComputed u scanned t) ∧ (¬changes r → t = scanned)) ∧
  ∀ (n : LineId) (i j : LinkId) (u : Station) (s : State), s.resetAsserted = false → (s.line n).filterOn = true →
    (s.line n).filtered = some .high → (s.line n).pending = some .low → i ≠ j →
    s.link i = some { source := .line n, cond := .low, action := .tripAll } →
    s.link j = some { source := .line n, cond := .high, action := .enableStation u } →
    (∀ k l, k ≠ i → k ≠ j → s.link k = some l → l.source ≠ .line n) →
    ∃ t, exec (.filterAccept n) s = .next t ∧ t.enables.get u = false ∧ (∀ w, w ≠ u → t.enables.get w = s.enables.get w) ∧
      t.links = s.links ∧ (t.line n).filtered = some .low ∧
      ∀ f, t.flight f = (s.flight f).afterTrip (.linkTrip i) ∨
        ((s.flight f).claim = some u ∧ s.enables.get u = true ∧
          t.flight f = ((s.flight f).afterRestraint .enableLost).afterTrip (.linkTrip i))

/-! ### Reads and ports -/

/-- STATUS makes its station heard, answers with the data of its table, in which the sender is ACTIVE, and clears this port's
notice and error flags, nothing else (10, R181, R182). A request row's frame is heard first, and its reply replaces what the
transmitter held (log entries 2 and 3). Bits without a meaning are sent as 0 by the model's choice (log entry 28). -/
def Obligations.StatusReports : Prop :=
  ∀ (st : Station) (s : State), s.resetAsserted = false →
    ∃ data : List Byte, exec (.status st) s =
        .next (startReply st kindStatus { code := .done, data := data }
          ((markHeard st s).updPort st fun p =>
            { p with flightNotices := Vector.replicate 6 .clear, linesNotice := false, linkNotice := false,
                     errors := .clear })) ∧
      let body : List Byte := 0 :: data
      body.length = 40 ∧ wordAt body 1 = s.stepCounter ∧
      (∀ f : FlightId, byteAt body (5 + 2 * f) = (s.flight f).state.byte ∧
        byteAt body (6 + 2 * f) = claimByte (s.flight f).claim) ∧
      (∀ n : AxisId, byteAt body (17 + n) = (s.axis n).state.byte) ∧
      (∀ (k : Station) (b : Nat), b < 8 → (byteAt body (29 + (stationByte k).toNat)).getLsbD b =
        (match b with | 0 => s.enables.get k | 1 => if k = st then false else s.silents.get k | _ => false)) ∧
      (∀ (f : FlightId) (b : Nat), b < 8 → (byteAt body (32 + f)).getLsbD b =
        (match b with
        | 0 => ((s.port st).flightNotices[f]).state | 1 => ((s.port st).flightNotices[f]).done
        | 2 => ((s.port st).flightNotices[f]).low | 3 => ((s.port st).flightNotices[f]).lost
        | 4 => ((s.port st).flightNotices[f]).reject | _ => false)) ∧
      (∀ b : Nat, b < 8 → (byteAt body 38).getLsbD b =
        (match b with | 0 => (s.port st).linesNotice | 1 => (s.port st).linkNotice | _ => false)) ∧
      ∀ b : Nat, b < 8 → (byteAt body 39).getLsbD b =
        (match b with
        | 0 => (s.port st).errors.framing | 1 => (s.port st).errors.gap | 2 => (s.port st).errors.length
        | 3 => (s.port st).errors.crc | 4 => (s.port st).errors.overrun | _ => false)

/-- READ-FLIGHT and READ-AXIS change no record, and answer with a BODY of its length and its fields at their offsets, or, for a
number that names none, BAD_PARAMETER (10, R183, R184). What is sent for an absent cause is read from R183 (log entry 12); what is
sent as the start position of a slot without a member, for an absent part of an axis record and in bits without a meaning is the
model's choice (log entries 25, 26, 28), the tension slot of an UNCONFIGURED axis is read from R2 (log entry 24). A request row's
frame is heard first, and its reply replaces what the transmitter held (log entries 2 and 3). -/
def Obligations.ReadsReportRecords : Prop :=
  (∀ (st : Station) (number : Byte) (s : State), s.resetAsserted = false →
    (6 ≤ number.toNat → exec (.readFlight st number) s = .next (answer st kindReadFlight .badParameter s)) ∧
    (12 ≤ number.toNat → exec (.readAxis st number) s = .next (answer st kindReadAxis .badParameter s))) ∧
  (∀ (st : Station) (flight : Byte) (f : FlightId) (s : State), NamesFlight flight f → s.resetAsserted = false →
    ∃ data : List Byte,
      exec (.readFlight st flight) s = .next (startReply st kindReadFlight { code := .done, data := data } (markHeard st s)) ∧
      let body : List Byte := 0 :: data
      let r := s.flight f
      body.length = 128 ∧ byteAt body 1 = flight ∧ byteAt body 2 = r.state.byte ∧ byteAt body 3 = claimByte r.claim ∧
      byteAt body 4 = BitVec.ofNat 8 r.members.length ∧
      (∀ i : Nat, i < 4 → byteAt body (5 + i) = match r.members[i]? with | some n => BitVec.ofNat 8 n | none => 0xFF) ∧
      byteAt body 9 = r.cueGate.byte ∧
      (∀ b : Nat, b < 8 → (byteAt body 10).getLsbD b =
        (match b with
        | 0 => r.active.isSome | 1 => r.dwell.isSome | 2 => r.armTimer.isSome | 3 => r.active.any (·.aStop.isSome)
        | 4 => r.active.any (·.byCue) | 5 => r.queueLow | 6 => r.furtherTrips | _ => false)) ∧
      halfAt body 11 = BitVec.ofNat 16 (r.dwell.getD 0) ∧ byteAt body 13 = BitVec.ofNat 8 (r.armTimer.getD 0) ∧
      [byteAt body 14, byteAt body 15] =
        (match r.holdCause with
        | none => [0, 0]
        | some (.stationHold k) => [1, 0x80 + stationByte k] | some (.holdAllStation k) => [2, 0x80 + stationByte k]
        | some (.holdAllLink i) => [2, BitVec.ofNat 8 i] | some (.linkHold i) => [3, BitVec.ofNat 8 i]
        | some .enableLost => [4, 0xFF] | some .stationSilent => [5, 0xFF]) ∧
      [byteAt body 16, byteAt body 17] =
        (match r.tripCause with
        | none => [0, 0]
        | some (.linkTrip i) => [1, BitVec.ofNat 8 i] | some (.stationStop k) => [2, 0x80 + stationByte k]
        | some (.axisFault c n) => [c.byte, BitVec.ofNat 8 n] | some (.brakeTimeout n) => [8, BitVec.ofNat 8 n]) ∧
      halfAt body 18 = BitVec.ofNat 16 r.holdDecel ∧ halfAt body 20 = BitVec.ofInt 16 r.loadMin ∧
      halfAt body 22 = BitVec.ofInt 16 r.loadMax ∧
      (∀ a, r.active = some a →
        halfAt body 24 = a.seg.tag ∧ (∀ b : Nat, b < 8 → (byteAt body 26).getLsbD b = (a.seg.target b).isSome) ∧
        (∀ i : Nat, i < 4 → wordAt body (27 + 4 * i) = BitVec.ofInt 32 ((a.seg.target i).getD 0)) ∧
        wordAt body 43 = BitVec.ofNat 32 a.seg.vmax ∧ halfAt body 47 = BitVec.ofNat 16 a.seg.aUp ∧
        halfAt body 49 = BitVec.ofNat 16 a.seg.aDn ∧ halfAt body 51 = BitVec.ofNat 16 a.seg.dwell ∧
        byteAt body 53 = a.seg.start.byte ∧
        byteAt body 54 = (if a.seg.recycle then 1 else 0) + (if a.seg.loadCheck then 2 else 0) ∧
        (∀ i : Nat, i < 4 → wordAt body (55 + 4 * i) = BitVec.ofInt 32 (a.starts.getD i 0)) ∧
        (a.pathLen < 2 ^ 32 → wordAt body 71 = BitVec.ofNat 32 a.pathLen) ∧
        (a.pos < 2 ^ 32 → wordAt body 75 = BitVec.ofNat 32 a.pos) ∧ wordAt body 79 = BitVec.ofNat 32 a.speed ∧
        wordAt body 83 = BitVec.ofNat 32 a.vEff ∧ halfAt body 87 = BitVec.ofNat 16 a.aUpEff ∧
        halfAt body 89 = BitVec.ofNat 16 a.aDnEff ∧ halfAt body 91 = BitVec.ofNat 16 a.aHoldEff ∧
        halfAt body 93 = BitVec.ofNat 16 (a.aStop.getD 0)) ∧
      (r.active = none → ∀ j, 24 ≤ j → j ≤ 94 → byteAt body j = 0) ∧
      byteAt body 95 = BitVec.ofNat 8 r.queue.length ∧
      ∀ j : Nat, j < 8 → [byteAt body (96 + 4 * j), byteAt body (97 + 4 * j), byteAt body (98 + 4 * j), byteAt body (99 + 4 * j)] =
        match r.queue[j]? with
        | some seg => halfBytes seg.tag ++
            [seg.start.byte, (if seg.recycle then 1 else 0) + (if seg.loadCheck then 2 else 0)]
        | none => [0, 0, 0, 0]) ∧
  ∀ (st : Station) (axis : Byte) (n : AxisId) (s : State), axis.toNat = n.val → s.resetAsserted = false →
    ∃ data : List Byte,
      exec (.readAxis st axis) s = .next (startReply st kindReadAxis { code := .done, data := data } (markHeard st s)) ∧
      let body : List Byte := 0 :: data
      let a := s.axis n
      body.length = 41 ∧ byteAt body 1 = axis ∧ byteAt body 2 = a.state.byte ∧
      byteAt body 3 = (match a.flight with | some f => BitVec.ofNat 8 f | none => 0xFF) ∧
      byteAt body 4 = (match a.faultCause with | some c => c.byte | none => 0) ∧
      (∀ p, a.params = some p → byteAt body 5 = p.address.setWidth 8 ∧ wordAt body 6 = BitVec.ofInt 32 p.lower ∧
        wordAt body 10 = BitVec.ofInt 32 p.upper ∧ wordAt body 14 = BitVec.ofNat 32 p.vmax ∧
        halfAt body 18 = BitVec.ofNat 16 p.amax ∧ wordAt body 20 = BitVec.ofNat 32 p.window ∧
        byteAt body 24 = (match p.slot with | some k => BitVec.ofNat 8 k | none => 0xFF)) ∧
      ((a.params = none → ∀ j, 5 ≤ j → j ≤ 23 → byteAt body j = 0) ∧ (a.params = none → byteAt body 24 = 0xFF)) ∧
      wordAt body 25 = BitVec.ofInt 32 a.setPoint ∧
      (∀ b : Nat, b < 8 → (byteAt body 29).getLsbD b =
        (match b with
        | 0 => a.lastWrite.isSome | 1 => a.lastWrite.any (·.release) | 2 => a.measured.isSome
        | 3 => a.driveStatus.isSome | _ => false)) ∧
      wordAt body 30 = BitVec.ofInt 32 ((a.lastWrite.map (·.setPoint)).getD 0) ∧ wordAt body 34 = BitVec.ofInt 32 (a.measured.getD 0) ∧ byteAt body 38 = a.driveStatus.getD 0 ∧
      byteAt body 39 = BitVec.ofNat 8 a.missedStreak ∧ byteAt body 40 = BitVec.ofNat 8 a.writeStreak

/-- READ-SLOTS reports the scanner and every slot and clears this port's fresh flags; READ-LINES reports every line and link and
clears this port's change flags behind the report. A READ-LINES that carries filter enables writes them first and reports the
lines as they stand after the write: a line whose filter goes off takes its raw level at once, as an accepted change that sets
LINES and the change flag on every port, this port's flag being in the report, or as a first settling that sets none (08, R152;
09, R160 to R162; 10, R185, R186). The bits of a slot's flag byte without a meaning are the model's choice (log entry 28). A
request row's frame is heard first, and its reply replaces what the transmitter held (log entries 2 and 3). -/
def Obligations.ReadsReportBlocks : Prop :=
  (∀ (st : Station) (s : State), s.resetAsserted = false →
    ∃ data : List Byte,
      exec (.readSlots st) s = .next (startReply st kindReadSlots { code := .done, data := data }
        ((markHeard st s).updPort st fun p => { p with fresh := Vector.replicate 8 false })) ∧
      let body : List Byte := 0 :: data
      body.length = 117 ∧ byteAt body 1 = s.scanMode.byte ∧ byteAt body 2 = s.scanState.byte ∧
      byteAt body 3 = (match s.scanState with | .scanning k => BitVec.ofNat 8 k | .stopped | .waiting => 0xFF) ∧
      ∀ k : SlotId, (byteAt body 4).getLsbD k = (s.port st).fresh[k] ∧
        byteAt body (5 + 14 * k) = BitVec.ofNat 8 (s.slot k).input ∧
        (∀ b : Nat, b < 8 → (byteAt body (6 + 14 * k)).getLsbD b =
          (match b with
          | 0 => (s.slot k).enabled | 1 => (s.slot k).valid | 2 => decide ((s.slot k).origin = .injected)
          | 3 => (s.slot k).isOver | 4 => (s.slot k).isUnder | _ => false)) ∧
        halfAt body (9 + 14 * k) = BitVec.ofInt 16 (s.slot k).high ∧ halfAt body (11 + 14 * k) = BitVec.ofInt 16 (s.slot k).low ∧
        halfAt body (13 + 14 * k) = BitVec.ofInt 16 (s.slot k).slack ∧
        halfAt body (7 + 14 * k) = BitVec.ofNat 16 (s.slot k).tare ∧
        halfAt body (15 + 14 * k) = BitVec.ofNat 16 (if (s.slot k).valid then (s.slot k).raw else 0) ∧
        halfAt body (17 + 14 * k) = BitVec.ofInt 16 (if (s.slot k).valid then (s.slot k).tared else 0)) ∧
  let reports (st : Station) (w : State) (data : List Byte) : Prop :=
    let body : List Byte := 0 :: data
    body.length = 129 ∧
    (∀ n : LineId, (halfAt body 1).getLsbD n = decide ((w.line n).filtered = some .high) ∧
      (halfAt body 3).getLsbD n = decide ((w.line n).filtered = none) ∧
      (halfAt body 5).getLsbD n = (w.line n).filterOn ∧ (halfAt body 7).getLsbD n = (w.port st).change[n]) ∧
    ∀ m : LinkId, (List.range 5).map (fun j => byteAt body (9 + 5 * m + j)) =
      match w.link m with
      | none => [0, 0, 0, 0, 0]
      | some l => [1, l.source.byte, l.cond.byte] ++ l.action.codes
  let answered (st : Station) (w : State) (data : List Byte) : Out :=
    .next (startReply st kindReadLines { code := .done, data := data }
      (w.updPort st fun p => { p with change := Vector.replicate 16 false }))
  (∀ (st : Station) (s : State), s.resetAsserted = false →
    ∃ data, exec (.readLines st none) s = answered st (markHeard st s) data ∧ reports st (markHeard st s) data) ∧
  ∀ (st : Station) (filters : Half) (s : State), s.resetAsserted = false →
    (∀ n, NoLinkOn (.line n) s) →
    let goesOff (n : LineId) := (s.line n).filterOn = true ∧ filters.getLsbD n = false
    let accepts (n : LineId) := goesOff n ∧ ∃ old, (s.line n).filtered = some old ∧ old ≠ (s.line n).raw
    ∃ w data, exec (.readLines st (some filters)) s = answered st w data ∧ reports st w data ∧
      (∀ n : LineId,
        let l := s.line n
        w.line n = { l with filterOn := filters.getLsbD n
                            pending := if goesOff n then none else l.pending
                            filtered := if goesOff n then some l.raw else l.filtered }) ∧
      (∀ u, w.port u =
        { (markHeard st s).port u with
            change := (w.port u).change, linesNotice := (s.port u).linesNotice || decide (∃ n, accepts n) } ∧
        ∀ n : LineId, (w.port u).change[n] = ((s.port u).change[n] || decide (accepts n))) ∧
      w = { markHeard st s with lines := w.lines, ports := w.ports, freeIndex := w.freeIndex }

/-- The port's own events: a request of a KIND outside the catalogue is answered UNKNOWN_KIND; more than 10 ms without a next byte
discards the frame in assembly with GAP; the end of a reply leaves the transmitter IDLE or takes the request in the buffer (10,
R175 to R178). A request row's frame is heard first, and its reply replaces what the transmitter held (log entries 2 and 3). -/
def Obligations.PortEvents : Prop :=
  (∀ (st : Station) (kind : Byte) (s : State), s.resetAsserted = false → kind ∉ requestKinds →
    exec (.unknownKind st kind) s = .next (answer st kind .unknownKind s)) ∧
  (∀ (st : Station) (s : State), s.resetAsserted = false → (s.port st).stage ≠ .hunting →
    exec (.gap st) s = .next (s.updPort st fun p =>
      { p with stage := .hunting, assembly := .empty, errors := { p.errors with gap := true }, linkNotice := true })) ∧
  ∀ (st : Station) (s : State), s.resetAsserted = false → (s.port st).tx ≠ .idle →
    exec (.replySent st) s =
      match (s.port st).buffer with
      | none => .next (s.updPort st fun p => { p with tx := .idle })
      | some fr =>
        let emptied := s.updPort st fun p => { p with tx := .idle, buffer := none }
        match decodeRequest st fr.kind fr.body with
        | .unknownKind => .next (reply st fr.kind .unknownKind emptied)
        | .badLength => .next (reply st fr.kind .badParameter emptied)
        | .request i => .next (startReply st fr.kind (serveRequest i emptied).2 (serveRequest i emptied).1)

/-- BYTE_RECEIVED, by the stage of the receiver: a byte with a low stop bit discards with FRAMING, a LENGTH of 0 or above 200 with
LENGTH, a frame with a wrong CRC with CRC, and a right one onto a full buffer with OVERRUN; a right one behind a reply in progress
waits in the buffer and makes its station heard (06, R117, R119; 10, R174 to R176). -/
def Obligations.ReceiverStages : Prop :=
  ∀ (st : Station) (b : Byte) (s : State), s.resetAsserted = false →
    let p := s.port st
    let lost (g : ErrorFlags → ErrorFlags) :=
      s.updPort st fun p => { p with stage := .hunting, assembly := .empty, errors := g p.errors, linkNotice := true }
    exec (.byteReceived st b false) s = .next (lost fun e => { e with framing := true }) ∧
    match p.stage with
    | .hunting =>
      exec (.byteReceived st b true) s =
        .next (if b = 0xA5 then s.updPort st fun p => { p with stage := .length, assembly := .empty } else s)
    | .length =>
      exec (.byteReceived st b true) s = .next (
        if b.toNat = 0 ∨ 200 < b.toNat then lost fun e => { e with length := true }
        else s.updPort st fun p => { p with stage := .content, assembly := { p.assembly with length := some b } })
    | .content => ∀ len : Byte, p.assembly.length = some len →
      exec (.byteReceived st b true) s = .next (s.updPort st fun p =>
        { p with stage := if len.toNat ≤ p.assembly.content.length + 1 then .check else .content
                 assembly := { p.assembly with content := p.assembly.content ++ [b] } })
    | .check => ∀ (len kind : Byte) (body : List Byte), p.assembly.length = some len →
      p.assembly.content = kind :: body →
      (p.assembly.crc = [] → exec (.byteReceived st b true) s =
        .next (s.updPort st fun p => { p with assembly := { p.assembly with crc := [b] } })) ∧
      ∀ c : Byte, p.assembly.crc = [c] →
        (c ++ b ≠ crc16 (len :: kind :: body) →
          exec (.byteReceived st b true) s = .next (lost fun e => { e with crc := true })) ∧
        (c ++ b = crc16 (len :: kind :: body) → p.buffer ≠ none →
          exec (.byteReceived st b true) s = .next (lost fun e => { e with overrun := true })) ∧
        (c ++ b = crc16 (len :: kind :: body) → p.buffer = none → p.tx ≠ .idle →
          exec (.byteReceived st b true) s = .next ((s.updPort st fun p =>
            { p with stage := .hunting, assembly := .empty, silence := 0,
                     buffer := some { kind := kind, body := body } }).setSilent st false))
end

