-- ==== Sys2Proof/Laws/State.lean ====
section
/-! SUPPORT. The small lemmas of State: what each named update does to each field and to each record, so that no proof unfolds a
record update. -/

namespace Sys2Proof.Machine

/-! ### Tables -/

theorem getElem_updAt {α : Type} {n : Nat} (v : Vector α n) (i j : Fin n) (g : α → α) :
    (updAt v i g)[j] = if j = i then g v[j] else v[j] := by
  simp only [updAt, Fin.getElem_fin, Vector.getElem_set, Fin.ext_iff]
  split <;> rename_i h
  · simp [← h]
  · simp [Ne.symm h]

@[simp] theorem getElem_mapAt {α : Type} {n : Nat} (v : Vector α n) (j : Fin n) (g : Fin n → α → α) :
    (mapAt v g)[j] = g j v[j] := by
  simp [mapAt]

@[simp] theorem PerStation.get_upd {α : Type} (p : PerStation α) (st u : Station) (g : α → α) :
    (p.upd st g).get u = if u = st then g (p.get u) else p.get u := by
  cases st <;> cases u <;> rfl

@[simp] theorem PerStation.get_map {α : Type} (p : PerStation α) (u : Station) (g : α → α) :
    (p.map g).get u = g (p.get u) := by
  cases u <;> rfl

theorem PerStation.ext_get {α : Type} (p q : PerStation α) (h : ∀ u, p.get u = q.get u) : p = q := by
  cases p; cases q
  have ha := h .a; have hb := h .b; have hc := h .c
  simp only [PerStation.get] at ha hb hc
  simp [ha, hb, hc]

theorem vector_ext_fin {α : Type} {n : Nat} {v w : Vector α n} (h : ∀ i : Fin n, v[i] = w[i]) : v = w :=
  Vector.ext fun i hi => h ⟨i, hi⟩

/-! ### The record that an update changes -/

theorem State.updFlight_flight (s : State) (f h : FlightId) (g : Flight → Flight) :
    (s.updFlight f g).flight h = if h = f then g (s.flight h) else s.flight h := getElem_updAt _ _ _ _
@[simp] theorem State.updFlight_flight_same (s : State) (f : FlightId) (g : Flight → Flight) :
    (s.updFlight f g).flight f = g (s.flight f) := by simp [State.updFlight_flight]
theorem State.updFlight_flight_other (s : State) {f h : FlightId} (g : Flight → Flight) (ne : h ≠ f) :
    (s.updFlight f g).flight h = s.flight h := by simp [State.updFlight_flight, ne]
theorem State.updAxis_axis (s : State) (n m : AxisId) (g : Axis → Axis) :
    (s.updAxis n g).axis m = if m = n then g (s.axis m) else s.axis m := getElem_updAt _ _ _ _
@[simp] theorem State.updAxis_axis_same (s : State) (n : AxisId) (g : Axis → Axis) :
    (s.updAxis n g).axis n = g (s.axis n) := by simp [State.updAxis_axis]
@[simp] theorem State.mapAxes_axis (s : State) (g : AxisId → Axis → Axis) (m : AxisId) :
    (s.mapAxes g).axis m = g m (s.axis m) := getElem_mapAt _ _ _
theorem State.setLink_link (s : State) (i j : LinkId) (l : Option Link) :
    (s.setLink i l).link j = if j = i then l else s.link j := getElem_updAt _ _ _ _
@[simp] theorem State.setLink_link_same (s : State) (i : LinkId) (l : Option Link) : (s.setLink i l).link i = l := by
  simp [State.setLink_link]
theorem State.updSlot_slot (s : State) (k q : SlotId) (g : Slot → Slot) :
    (s.updSlot k g).slot q = if q = k then g (s.slot q) else s.slot q := getElem_updAt _ _ _ _
@[simp] theorem State.updSlot_slot_same (s : State) (k : SlotId) (g : Slot → Slot) :
    (s.updSlot k g).slot k = g (s.slot k) := by simp [State.updSlot_slot]
theorem State.updLine_line (s : State) (n y : LineId) (g : SenseLine → SenseLine) :
    (s.updLine n g).line y = if y = n then g (s.line y) else s.line y := getElem_updAt _ _ _ _
@[simp] theorem State.updLine_line_same (s : State) (n : LineId) (g : SenseLine → SenseLine) :
    (s.updLine n g).line n = g (s.line n) := by simp [State.updLine_line]
theorem State.updPort_port (s : State) (st u : Station) (g : Port → Port) :
    (s.updPort st g).port u = if u = st then g (s.port u) else s.port u := PerStation.get_upd _ _ _ _
@[simp] theorem State.updPort_port_same (s : State) (st : Station) (g : Port → Port) :
    (s.updPort st g).port st = g (s.port st) := by simp [State.updPort_port]
@[simp] theorem State.mapPorts_port (s : State) (g : Port → Port) (u : Station) :
    (s.mapPorts g).port u = g (s.port u) := PerStation.get_map _ _ _
@[simp] theorem State.setEnable_get (s : State) (st u : Station) (b : Bool) :
    (s.setEnable st b).enables.get u = if u = st then b else s.enables.get u := PerStation.get_upd _ _ _ _
@[simp] theorem State.setSilent_get (s : State) (st u : Station) (b : Bool) :
    (s.setSilent st b).silents.get u = if u = st then b else s.silents.get u := PerStation.get_upd _ _ _ _

/-! ### What each update leaves alone -/

@[simp] theorem State.updFlight_axes (s : State) (f : FlightId) (g : Flight → Flight) : (s.updFlight f g).axes = s.axes := rfl
@[simp] theorem State.updFlight_links (s : State) (f : FlightId) (g : Flight → Flight) : (s.updFlight f g).links = s.links := rfl
@[simp] theorem State.updFlight_slots (s : State) (f : FlightId) (g : Flight → Flight) : (s.updFlight f g).slots = s.slots := rfl
@[simp] theorem State.updFlight_lines (s : State) (f : FlightId) (g : Flight → Flight) : (s.updFlight f g).lines = s.lines := rfl
@[simp] theorem State.updFlight_ports (s : State) (f : FlightId) (g : Flight → Flight) : (s.updFlight f g).ports = s.ports := rfl
@[simp] theorem State.updFlight_enables (s : State) (f : FlightId) (g : Flight → Flight) : (s.updFlight f g).enables = s.enables := rfl
@[simp] theorem State.updFlight_silents (s : State) (f : FlightId) (g : Flight → Flight) : (s.updFlight f g).silents = s.silents := rfl
@[simp] theorem State.updFlight_scanMode (s : State) (f : FlightId) (g : Flight → Flight) : (s.updFlight f g).scanMode = s.scanMode := rfl
@[simp] theorem State.updFlight_scanState (s : State) (f : FlightId) (g : Flight → Flight) : (s.updFlight f g).scanState = s.scanState := rfl
@[simp] theorem State.updFlight_round (s : State) (f : FlightId) (g : Flight → Flight) : (s.updFlight f g).round = s.round := rfl
@[simp] theorem State.updFlight_roundPending (s : State) (f : FlightId) (g : Flight → Flight) : (s.updFlight f g).roundPending = s.roundPending := rfl
@[simp] theorem State.updFlight_turn (s : State) (f : FlightId) (g : Flight → Flight) : (s.updFlight f g).turn = s.turn := rfl
@[simp] theorem State.updFlight_exchange (s : State) (f : FlightId) (g : Flight → Flight) : (s.updFlight f g).exchange = s.exchange := rfl
@[simp] theorem State.updFlight_stepCounter (s : State) (f : FlightId) (g : Flight → Flight) : (s.updFlight f g).stepCounter = s.stepCounter := rfl
@[simp] theorem State.updFlight_timerRunning (s : State) (f : FlightId) (g : Flight → Flight) : (s.updFlight f g).timerRunning = s.timerRunning := rfl
@[simp] theorem State.updFlight_resetAsserted (s : State) (f : FlightId) (g : Flight → Flight) : (s.updFlight f g).resetAsserted = s.resetAsserted := rfl
@[simp] theorem State.updFlight_brakes (s : State) (f : FlightId) (g : Flight → Flight) : (s.updFlight f g).brakes = s.brakes := rfl
@[simp] theorem State.updFlight_sounder (s : State) (f : FlightId) (g : Flight → Flight) : (s.updFlight f g).sounder = s.sounder := rfl
@[simp] theorem State.updFlight_faultLine (s : State) (f : FlightId) (g : Flight → Flight) : (s.updFlight f g).faultLine = s.faultLine := rfl
@[simp] theorem State.updFlight_freeIndex (s : State) (f : FlightId) (g : Flight → Flight) : (s.updFlight f g).freeIndex = s.freeIndex := rfl
@[simp] theorem State.updFlight_pending (s : State) (f : FlightId) (g : Flight → Flight) : (s.updFlight f g).pending = s.pending := rfl
@[simp] theorem State.updFlight_axis (s : State) (f : FlightId) (g : Flight → Flight) (m : AxisId) : (s.updFlight f g).axis m = s.axis m := rfl
@[simp] theorem State.updFlight_link (s : State) (f : FlightId) (g : Flight → Flight) (j : LinkId) : (s.updFlight f g).link j = s.link j := rfl
@[simp] theorem State.updFlight_slot (s : State) (f : FlightId) (g : Flight → Flight) (q : SlotId) : (s.updFlight f g).slot q = s.slot q := rfl
@[simp] theorem State.updFlight_line (s : State) (f : FlightId) (g : Flight → Flight) (y : LineId) : (s.updFlight f g).line y = s.line y := rfl
@[simp] theorem State.updFlight_port (s : State) (f : FlightId) (g : Flight → Flight) (u : Station) : (s.updFlight f g).port u = s.port u := rfl
@[simp] theorem State.updFlight_brake (s : State) (f : FlightId) (g : Flight → Flight) (m : AxisId) : (s.updFlight f g).brake m = s.brake m := rfl

@[simp] theorem State.updAxis_flights (s : State) (n : AxisId) (g : Axis → Axis) : (s.updAxis n g).flights = s.flights := rfl
@[simp] theorem State.updAxis_links (s : State) (n : AxisId) (g : Axis → Axis) : (s.updAxis n g).links = s.links := rfl
@[simp] theorem State.updAxis_slots (s : State) (n : AxisId) (g : Axis → Axis) : (s.updAxis n g).slots = s.slots := rfl
@[simp] theorem State.updAxis_lines (s : State) (n : AxisId) (g : Axis → Axis) : (s.updAxis n g).lines = s.lines := rfl
@[simp] theorem State.updAxis_ports (s : State) (n : AxisId) (g : Axis → Axis) : (s.updAxis n g).ports = s.ports := rfl
@[simp] theorem State.updAxis_enables (s : State) (n : AxisId) (g : Axis → Axis) : (s.updAxis n g).enables = s.enables := rfl
@[simp] theorem State.updAxis_silents (s : State) (n : AxisId) (g : Axis → Axis) : (s.updAxis n g).silents = s.silents := rfl
@[simp] theorem State.updAxis_scanMode (s : State) (n : AxisId) (g : Axis → Axis) : (s.updAxis n g).scanMode = s.scanMode := rfl
@[simp] theorem State.updAxis_scanState (s : State) (n : AxisId) (g : Axis → Axis) : (s.updAxis n g).scanState = s.scanState := rfl
@[simp] theorem State.updAxis_round (s : State) (n : AxisId) (g : Axis → Axis) : (s.updAxis n g).round = s.round := rfl
@[simp] theorem State.updAxis_roundPending (s : State) (n : AxisId) (g : Axis → Axis) : (s.updAxis n g).roundPending = s.roundPending := rfl
@[simp] theorem State.updAxis_turn (s : State) (n : AxisId) (g : Axis → Axis) : (s.updAxis n g).turn = s.turn := rfl
@[simp] theorem State.updAxis_exchange (s : State) (n : AxisId) (g : Axis → Axis) : (s.updAxis n g).exchange = s.exchange := rfl
@[simp] theorem State.updAxis_stepCounter (s : State) (n : AxisId) (g : Axis → Axis) : (s.updAxis n g).stepCounter = s.stepCounter := rfl
@[simp] theorem State.updAxis_timerRunning (s : State) (n : AxisId) (g : Axis → Axis) : (s.updAxis n g).timerRunning = s.timerRunning := rfl
@[simp] theorem State.updAxis_resetAsserted (s : State) (n : AxisId) (g : Axis → Axis) : (s.updAxis n g).resetAsserted = s.resetAsserted := rfl
@[simp] theorem State.updAxis_brakes (s : State) (n : AxisId) (g : Axis → Axis) : (s.updAxis n g).brakes = s.brakes := rfl
@[simp] theorem State.updAxis_sounder (s : State) (n : AxisId) (g : Axis → Axis) : (s.updAxis n g).sounder = s.sounder := rfl
@[simp] theorem State.updAxis_faultLine (s : State) (n : AxisId) (g : Axis → Axis) : (s.updAxis n g).faultLine = s.faultLine := rfl
@[simp] theorem State.updAxis_freeIndex (s : State) (n : AxisId) (g : Axis → Axis) : (s.updAxis n g).freeIndex = s.freeIndex := rfl
@[simp] theorem State.updAxis_pending (s : State) (n : AxisId) (g : Axis → Axis) : (s.updAxis n g).pending = s.pending := rfl
@[simp] theorem State.updAxis_flight (s : State) (n : AxisId) (g : Axis → Axis) (h : FlightId) : (s.updAxis n g).flight h = s.flight h := rfl
@[simp] theorem State.updAxis_link (s : State) (n : AxisId) (g : Axis → Axis) (j : LinkId) : (s.updAxis n g).link j = s.link j := rfl
@[simp] theorem State.updAxis_slot (s : State) (n : AxisId) (g : Axis → Axis) (q : SlotId) : (s.updAxis n g).slot q = s.slot q := rfl
@[simp] theorem State.updAxis_line (s : State) (n : AxisId) (g : Axis → Axis) (y : LineId) : (s.updAxis n g).line y = s.line y := rfl
@[simp] theorem State.updAxis_port (s : State) (n : AxisId) (g : Axis → Axis) (u : Station) : (s.updAxis n g).port u = s.port u := rfl
@[simp] theorem State.updAxis_brake (s : State) (n : AxisId) (g : Axis → Axis) (m : AxisId) : (s.updAxis n g).brake m = s.brake m := rfl

@[simp] theorem State.mapAxes_flights (s : State) (g : AxisId → Axis → Axis) : (s.mapAxes g).flights = s.flights := rfl
@[simp] theorem State.mapAxes_links (s : State) (g : AxisId → Axis → Axis) : (s.mapAxes g).links = s.links := rfl
@[simp] theorem State.mapAxes_slots (s : State) (g : AxisId → Axis → Axis) : (s.mapAxes g).slots = s.slots := rfl
@[simp] theorem State.mapAxes_lines (s : State) (g : AxisId → Axis → Axis) : (s.mapAxes g).lines = s.lines := rfl
@[simp] theorem State.mapAxes_ports (s : State) (g : AxisId → Axis → Axis) : (s.mapAxes g).ports = s.ports := rfl
@[simp] theorem State.mapAxes_enables (s : State) (g : AxisId → Axis → Axis) : (s.mapAxes g).enables = s.enables := rfl
@[simp] theorem State.mapAxes_silents (s : State) (g : AxisId → Axis → Axis) : (s.mapAxes g).silents = s.silents := rfl
@[simp] theorem State.mapAxes_scanMode (s : State) (g : AxisId → Axis → Axis) : (s.mapAxes g).scanMode = s.scanMode := rfl
@[simp] theorem State.mapAxes_scanState (s : State) (g : AxisId → Axis → Axis) : (s.mapAxes g).scanState = s.scanState := rfl
@[simp] theorem State.mapAxes_round (s : State) (g : AxisId → Axis → Axis) : (s.mapAxes g).round = s.round := rfl
@[simp] theorem State.mapAxes_roundPending (s : State) (g : AxisId → Axis → Axis) : (s.mapAxes g).roundPending = s.roundPending := rfl
@[simp] theorem State.mapAxes_turn (s : State) (g : AxisId → Axis → Axis) : (s.mapAxes g).turn = s.turn := rfl
@[simp] theorem State.mapAxes_exchange (s : State) (g : AxisId → Axis → Axis) : (s.mapAxes g).exchange = s.exchange := rfl
@[simp] theorem State.mapAxes_stepCounter (s : State) (g : AxisId → Axis → Axis) : (s.mapAxes g).stepCounter = s.stepCounter := rfl
@[simp] theorem State.mapAxes_timerRunning (s : State) (g : AxisId → Axis → Axis) : (s.mapAxes g).timerRunning = s.timerRunning := rfl
@[simp] theorem State.mapAxes_resetAsserted (s : State) (g : AxisId → Axis → Axis) : (s.mapAxes g).resetAsserted = s.resetAsserted := rfl
@[simp] theorem State.mapAxes_brakes (s : State) (g : AxisId → Axis → Axis) : (s.mapAxes g).brakes = s.brakes := rfl
@[simp] theorem State.mapAxes_sounder (s : State) (g : AxisId → Axis → Axis) : (s.mapAxes g).sounder = s.sounder := rfl
@[simp] theorem State.mapAxes_faultLine (s : State) (g : AxisId → Axis → Axis) : (s.mapAxes g).faultLine = s.faultLine := rfl
@[simp] theorem State.mapAxes_freeIndex (s : State) (g : AxisId → Axis → Axis) : (s.mapAxes g).freeIndex = s.freeIndex := rfl
@[simp] theorem State.mapAxes_pending (s : State) (g : AxisId → Axis → Axis) : (s.mapAxes g).pending = s.pending := rfl
@[simp] theorem State.mapAxes_flight (s : State) (g : AxisId → Axis → Axis) (h : FlightId) : (s.mapAxes g).flight h = s.flight h := rfl
@[simp] theorem State.mapAxes_link (s : State) (g : AxisId → Axis → Axis) (j : LinkId) : (s.mapAxes g).link j = s.link j := rfl
@[simp] theorem State.mapAxes_slot (s : State) (g : AxisId → Axis → Axis) (q : SlotId) : (s.mapAxes g).slot q = s.slot q := rfl
@[simp] theorem State.mapAxes_line (s : State) (g : AxisId → Axis → Axis) (y : LineId) : (s.mapAxes g).line y = s.line y := rfl
@[simp] theorem State.mapAxes_port (s : State) (g : AxisId → Axis → Axis) (u : Station) : (s.mapAxes g).port u = s.port u := rfl
@[simp] theorem State.mapAxes_brake (s : State) (g : AxisId → Axis → Axis) (m : AxisId) : (s.mapAxes g).brake m = s.brake m := rfl

@[simp] theorem State.setLink_flights (s : State) (i : LinkId) (l : Option Link) : (s.setLink i l).flights = s.flights := rfl
@[simp] theorem State.setLink_axes (s : State) (i : LinkId) (l : Option Link) : (s.setLink i l).axes = s.axes := rfl
@[simp] theorem State.setLink_slots (s : State) (i : LinkId) (l : Option Link) : (s.setLink i l).slots = s.slots := rfl
@[simp] theorem State.setLink_lines (s : State) (i : LinkId) (l : Option Link) : (s.setLink i l).lines = s.lines := rfl
@[simp] theorem State.setLink_ports (s : State) (i : LinkId) (l : Option Link) : (s.setLink i l).ports = s.ports := rfl
@[simp] theorem State.setLink_enables (s : State) (i : LinkId) (l : Option Link) : (s.setLink i l).enables = s.enables := rfl
@[simp] theorem State.setLink_silents (s : State) (i : LinkId) (l : Option Link) : (s.setLink i l).silents = s.silents := rfl
@[simp] theorem State.setLink_scanMode (s : State) (i : LinkId) (l : Option Link) : (s.setLink i l).scanMode = s.scanMode := rfl
@[simp] theorem State.setLink_scanState (s : State) (i : LinkId) (l : Option Link) : (s.setLink i l).scanState = s.scanState := rfl
@[simp] theorem State.setLink_round (s : State) (i : LinkId) (l : Option Link) : (s.setLink i l).round = s.round := rfl
@[simp] theorem State.setLink_roundPending (s : State) (i : LinkId) (l : Option Link) : (s.setLink i l).roundPending = s.roundPending := rfl
@[simp] theorem State.setLink_turn (s : State) (i : LinkId) (l : Option Link) : (s.setLink i l).turn = s.turn := rfl
@[simp] theorem State.setLink_exchange (s : State) (i : LinkId) (l : Option Link) : (s.setLink i l).exchange = s.exchange := rfl
@[simp] theorem State.setLink_stepCounter (s : State) (i : LinkId) (l : Option Link) : (s.setLink i l).stepCounter = s.stepCounter := rfl
@[simp] theorem State.setLink_timerRunning (s : State) (i : LinkId) (l : Option Link) : (s.setLink i l).timerRunning = s.timerRunning := rfl
@[simp] theorem State.setLink_resetAsserted (s : State) (i : LinkId) (l : Option Link) : (s.setLink i l).resetAsserted = s.resetAsserted := rfl
@[simp] theorem State.setLink_brakes (s : State) (i : LinkId) (l : Option Link) : (s.setLink i l).brakes = s.brakes := rfl
@[simp] theorem State.setLink_sounder (s : State) (i : LinkId) (l : Option Link) : (s.setLink i l).sounder = s.sounder := rfl
@[simp] theorem State.setLink_faultLine (s : State) (i : LinkId) (l : Option Link) : (s.setLink i l).faultLine = s.faultLine := rfl
@[simp] theorem State.setLink_freeIndex (s : State) (i : LinkId) (l : Option Link) : (s.setLink i l).freeIndex = s.freeIndex := rfl
@[simp] theorem State.setLink_pending (s : State) (i : LinkId) (l : Option Link) : (s.setLink i l).pending = s.pending := rfl
@[simp] theorem State.setLink_flight (s : State) (i : LinkId) (l : Option Link) (h : FlightId) : (s.setLink i l).flight h = s.flight h := rfl
@[simp] theorem State.setLink_axis (s : State) (i : LinkId) (l : Option Link) (m : AxisId) : (s.setLink i l).axis m = s.axis m := rfl
@[simp] theorem State.setLink_slot (s : State) (i : LinkId) (l : Option Link) (q : SlotId) : (s.setLink i l).slot q = s.slot q := rfl
@[simp] theorem State.setLink_line (s : State) (i : LinkId) (l : Option Link) (y : LineId) : (s.setLink i l).line y = s.line y := rfl
@[simp] theorem State.setLink_port (s : State) (i : LinkId) (l : Option Link) (u : Station) : (s.setLink i l).port u = s.port u := rfl
@[simp] theorem State.setLink_brake (s : State) (i : LinkId) (l : Option Link) (m : AxisId) : (s.setLink i l).brake m = s.brake m := rfl

@[simp] theorem State.updSlot_flights (s : State) (k : SlotId) (g : Slot → Slot) : (s.updSlot k g).flights = s.flights := rfl
@[simp] theorem State.updSlot_axes (s : State) (k : SlotId) (g : Slot → Slot) : (s.updSlot k g).axes = s.axes := rfl
@[simp] theorem State.updSlot_links (s : State) (k : SlotId) (g : Slot → Slot) : (s.updSlot k g).links = s.links := rfl
@[simp] theorem State.updSlot_lines (s : State) (k : SlotId) (g : Slot → Slot) : (s.updSlot k g).lines = s.lines := rfl
@[simp] theorem State.updSlot_ports (s : State) (k : SlotId) (g : Slot → Slot) : (s.updSlot k g).ports = s.ports := rfl
@[simp] theorem State.updSlot_enables (s : State) (k : SlotId) (g : Slot → Slot) : (s.updSlot k g).enables = s.enables := rfl
@[simp] theorem State.updSlot_silents (s : State) (k : SlotId) (g : Slot → Slot) : (s.updSlot k g).silents = s.silents := rfl
@[simp] theorem State.updSlot_scanMode (s : State) (k : SlotId) (g : Slot → Slot) : (s.updSlot k g).scanMode = s.scanMode := rfl
@[simp] theorem State.updSlot_scanState (s : State) (k : SlotId) (g : Slot → Slot) : (s.updSlot k g).scanState = s.scanState := rfl
@[simp] theorem State.updSlot_round (s : State) (k : SlotId) (g : Slot → Slot) : (s.updSlot k g).round = s.round := rfl
@[simp] theorem State.updSlot_roundPending (s : State) (k : SlotId) (g : Slot → Slot) : (s.updSlot k g).roundPending = s.roundPending := rfl
@[simp] theorem State.updSlot_turn (s : State) (k : SlotId) (g : Slot → Slot) : (s.updSlot k g).turn = s.turn := rfl
@[simp] theorem State.updSlot_exchange (s : State) (k : SlotId) (g : Slot → Slot) : (s.updSlot k g).exchange = s.exchange := rfl
@[simp] theorem State.updSlot_stepCounter (s : State) (k : SlotId) (g : Slot → Slot) : (s.updSlot k g).stepCounter = s.stepCounter := rfl
@[simp] theorem State.updSlot_timerRunning (s : State) (k : SlotId) (g : Slot → Slot) : (s.updSlot k g).timerRunning = s.timerRunning := rfl
@[simp] theorem State.updSlot_resetAsserted (s : State) (k : SlotId) (g : Slot → Slot) : (s.updSlot k g).resetAsserted = s.resetAsserted := rfl
@[simp] theorem State.updSlot_brakes (s : State) (k : SlotId) (g : Slot → Slot) : (s.updSlot k g).brakes = s.brakes := rfl
@[simp] theorem State.updSlot_sounder (s : State) (k : SlotId) (g : Slot → Slot) : (s.updSlot k g).sounder = s.sounder := rfl
@[simp] theorem State.updSlot_faultLine (s : State) (k : SlotId) (g : Slot → Slot) : (s.updSlot k g).faultLine = s.faultLine := rfl
@[simp] theorem State.updSlot_freeIndex (s : State) (k : SlotId) (g : Slot → Slot) : (s.updSlot k g).freeIndex = s.freeIndex := rfl
@[simp] theorem State.updSlot_pending (s : State) (k : SlotId) (g : Slot → Slot) : (s.updSlot k g).pending = s.pending := rfl
@[simp] theorem State.updSlot_flight (s : State) (k : SlotId) (g : Slot → Slot) (h : FlightId) : (s.updSlot k g).flight h = s.flight h := rfl
@[simp] theorem State.updSlot_axis (s : State) (k : SlotId) (g : Slot → Slot) (m : AxisId) : (s.updSlot k g).axis m = s.axis m := rfl
@[simp] theorem State.updSlot_link (s : State) (k : SlotId) (g : Slot → Slot) (j : LinkId) : (s.updSlot k g).link j = s.link j := rfl
@[simp] theorem State.updSlot_line (s : State) (k : SlotId) (g : Slot → Slot) (y : LineId) : (s.updSlot k g).line y = s.line y := rfl
@[simp] theorem State.updSlot_port (s : State) (k : SlotId) (g : Slot → Slot) (u : Station) : (s.updSlot k g).port u = s.port u := rfl
@[simp] theorem State.updSlot_brake (s : State) (k : SlotId) (g : Slot → Slot) (m : AxisId) : (s.updSlot k g).brake m = s.brake m := rfl

@[simp] theorem State.updLine_flights (s : State) (n : LineId) (g : SenseLine → SenseLine) : (s.updLine n g).flights = s.flights := rfl
@[simp] theorem State.updLine_axes (s : State) (n : LineId) (g : SenseLine → SenseLine) : (s.updLine n g).axes = s.axes := rfl
@[simp] theorem State.updLine_links (s : State) (n : LineId) (g : SenseLine → SenseLine) : (s.updLine n g).links = s.links := rfl
@[simp] theorem State.updLine_slots (s : State) (n : LineId) (g : SenseLine → SenseLine) : (s.updLine n g).slots = s.slots := rfl
@[simp] theorem State.updLine_ports (s : State) (n : LineId) (g : SenseLine → SenseLine) : (s.updLine n g).ports = s.ports := rfl
@[simp] theorem State.updLine_enables (s : State) (n : LineId) (g : SenseLine → SenseLine) : (s.updLine n g).enables = s.enables := rfl
@[simp] theorem State.updLine_silents (s : State) (n : LineId) (g : SenseLine → SenseLine) : (s.updLine n g).silents = s.silents := rfl
@[simp] theorem State.updLine_scanMode (s : State) (n : LineId) (g : SenseLine → SenseLine) : (s.updLine n g).scanMode = s.scanMode := rfl
@[simp] theorem State.updLine_scanState (s : State) (n : LineId) (g : SenseLine → SenseLine) : (s.updLine n g).scanState = s.scanState := rfl
@[simp] theorem State.updLine_round (s : State) (n : LineId) (g : SenseLine → SenseLine) : (s.updLine n g).round = s.round := rfl
@[simp] theorem State.updLine_roundPending (s : State) (n : LineId) (g : SenseLine → SenseLine) : (s.updLine n g).roundPending = s.roundPending := rfl
@[simp] theorem State.updLine_turn (s : State) (n : LineId) (g : SenseLine → SenseLine) : (s.updLine n g).turn = s.turn := rfl
@[simp] theorem State.updLine_exchange (s : State) (n : LineId) (g : SenseLine → SenseLine) : (s.updLine n g).exchange = s.exchange := rfl
@[simp] theorem State.updLine_stepCounter (s : State) (n : LineId) (g : SenseLine → SenseLine) : (s.updLine n g).stepCounter = s.stepCounter := rfl
@[simp] theorem State.updLine_timerRunning (s : State) (n : LineId) (g : SenseLine → SenseLine) : (s.updLine n g).timerRunning = s.timerRunning := rfl
@[simp] theorem State.updLine_resetAsserted (s : State) (n : LineId) (g : SenseLine → SenseLine) : (s.updLine n g).resetAsserted = s.resetAsserted := rfl
@[simp] theorem State.updLine_brakes (s : State) (n : LineId) (g : SenseLine → SenseLine) : (s.updLine n g).brakes = s.brakes := rfl
@[simp] theorem State.updLine_sounder (s : State) (n : LineId) (g : SenseLine → SenseLine) : (s.updLine n g).sounder = s.sounder := rfl
@[simp] theorem State.updLine_faultLine (s : State) (n : LineId) (g : SenseLine → SenseLine) : (s.updLine n g).faultLine = s.faultLine := rfl
@[simp] theorem State.updLine_freeIndex (s : State) (n : LineId) (g : SenseLine → SenseLine) : (s.updLine n g).freeIndex = s.freeIndex := rfl
@[simp] theorem State.updLine_pending (s : State) (n : LineId) (g : SenseLine → SenseLine) : (s.updLine n g).pending = s.pending := rfl
@[simp] theorem State.updLine_flight (s : State) (n : LineId) (g : SenseLine → SenseLine) (h : FlightId) : (s.updLine n g).flight h = s.flight h := rfl
@[simp] theorem State.updLine_axis (s : State) (n : LineId) (g : SenseLine → SenseLine) (m : AxisId) : (s.updLine n g).axis m = s.axis m := rfl
@[simp] theorem State.updLine_link (s : State) (n : LineId) (g : SenseLine → SenseLine) (j : LinkId) : (s.updLine n g).link j = s.link j := rfl
@[simp] theorem State.updLine_slot (s : State) (n : LineId) (g : SenseLine → SenseLine) (q : SlotId) : (s.updLine n g).slot q = s.slot q := rfl
@[simp] theorem State.updLine_port (s : State) (n : LineId) (g : SenseLine → SenseLine) (u : Station) : (s.updLine n g).port u = s.port u := rfl
@[simp] theorem State.updLine_brake (s : State) (n : LineId) (g : SenseLine → SenseLine) (m : AxisId) : (s.updLine n g).brake m = s.brake m := rfl

@[simp] theorem State.updPort_flights (s : State) (st : Station) (g : Port → Port) : (s.updPort st g).flights = s.flights := rfl
@[simp] theorem State.updPort_axes (s : State) (st : Station) (g : Port → Port) : (s.updPort st g).axes = s.axes := rfl
@[simp] theorem State.updPort_links (s : State) (st : Station) (g : Port → Port) : (s.updPort st g).links = s.links := rfl
@[simp] theorem State.updPort_slots (s : State) (st : Station) (g : Port → Port) : (s.updPort st g).slots = s.slots := rfl
@[simp] theorem State.updPort_lines (s : State) (st : Station) (g : Port → Port) : (s.updPort st g).lines = s.lines := rfl
@[simp] theorem State.updPort_enables (s : State) (st : Station) (g : Port → Port) : (s.updPort st g).enables = s.enables := rfl
@[simp] theorem State.updPort_silents (s : State) (st : Station) (g : Port → Port) : (s.updPort st g).silents = s.silents := rfl
@[simp] theorem State.updPort_scanMode (s : State) (st : Station) (g : Port → Port) : (s.updPort st g).scanMode = s.scanMode := rfl
@[simp] theorem State.updPort_scanState (s : State) (st : Station) (g : Port → Port) : (s.updPort st g).scanState = s.scanState := rfl
@[simp] theorem State.updPort_round (s : State) (st : Station) (g : Port → Port) : (s.updPort st g).round = s.round := rfl
@[simp] theorem State.updPort_roundPending (s : State) (st : Station) (g : Port → Port) : (s.updPort st g).roundPending = s.roundPending := rfl
@[simp] theorem State.updPort_turn (s : State) (st : Station) (g : Port → Port) : (s.updPort st g).turn = s.turn := rfl
@[simp] theorem State.updPort_exchange (s : State) (st : Station) (g : Port → Port) : (s.updPort st g).exchange = s.exchange := rfl
@[simp] theorem State.updPort_stepCounter (s : State) (st : Station) (g : Port → Port) : (s.updPort st g).stepCounter = s.stepCounter := rfl
@[simp] theorem State.updPort_timerRunning (s : State) (st : Station) (g : Port → Port) : (s.updPort st g).timerRunning = s.timerRunning := rfl
@[simp] theorem State.updPort_resetAsserted (s : State) (st : Station) (g : Port → Port) : (s.updPort st g).resetAsserted = s.resetAsserted := rfl
@[simp] theorem State.updPort_brakes (s : State) (st : Station) (g : Port → Port) : (s.updPort st g).brakes = s.brakes := rfl
@[simp] theorem State.updPort_sounder (s : State) (st : Station) (g : Port → Port) : (s.updPort st g).sounder = s.sounder := rfl
@[simp] theorem State.updPort_faultLine (s : State) (st : Station) (g : Port → Port) : (s.updPort st g).faultLine = s.faultLine := rfl
@[simp] theorem State.updPort_freeIndex (s : State) (st : Station) (g : Port → Port) : (s.updPort st g).freeIndex = s.freeIndex := rfl
@[simp] theorem State.updPort_pending (s : State) (st : Station) (g : Port → Port) : (s.updPort st g).pending = s.pending := rfl
@[simp] theorem State.updPort_flight (s : State) (st : Station) (g : Port → Port) (h : FlightId) : (s.updPort st g).flight h = s.flight h := rfl
@[simp] theorem State.updPort_axis (s : State) (st : Station) (g : Port → Port) (m : AxisId) : (s.updPort st g).axis m = s.axis m := rfl
@[simp] theorem State.updPort_link (s : State) (st : Station) (g : Port → Port) (j : LinkId) : (s.updPort st g).link j = s.link j := rfl
@[simp] theorem State.updPort_slot (s : State) (st : Station) (g : Port → Port) (q : SlotId) : (s.updPort st g).slot q = s.slot q := rfl
@[simp] theorem State.updPort_line (s : State) (st : Station) (g : Port → Port) (y : LineId) : (s.updPort st g).line y = s.line y := rfl
@[simp] theorem State.updPort_brake (s : State) (st : Station) (g : Port → Port) (m : AxisId) : (s.updPort st g).brake m = s.brake m := rfl

@[simp] theorem State.mapPorts_flights (s : State) (g : Port → Port) : (s.mapPorts g).flights = s.flights := rfl
@[simp] theorem State.mapPorts_axes (s : State) (g : Port → Port) : (s.mapPorts g).axes = s.axes := rfl
@[simp] theorem State.mapPorts_links (s : State) (g : Port → Port) : (s.mapPorts g).links = s.links := rfl
@[simp] theorem State.mapPorts_slots (s : State) (g : Port → Port) : (s.mapPorts g).slots = s.slots := rfl
@[simp] theorem State.mapPorts_lines (s : State) (g : Port → Port) : (s.mapPorts g).lines = s.lines := rfl
@[simp] theorem State.mapPorts_enables (s : State) (g : Port → Port) : (s.mapPorts g).enables = s.enables := rfl
@[simp] theorem State.mapPorts_silents (s : State) (g : Port → Port) : (s.mapPorts g).silents = s.silents := rfl
@[simp] theorem State.mapPorts_scanMode (s : State) (g : Port → Port) : (s.mapPorts g).scanMode = s.scanMode := rfl
@[simp] theorem State.mapPorts_scanState (s : State) (g : Port → Port) : (s.mapPorts g).scanState = s.scanState := rfl
@[simp] theorem State.mapPorts_round (s : State) (g : Port → Port) : (s.mapPorts g).round = s.round := rfl
@[simp] theorem State.mapPorts_roundPending (s : State) (g : Port → Port) : (s.mapPorts g).roundPending = s.roundPending := rfl
@[simp] theorem State.mapPorts_turn (s : State) (g : Port → Port) : (s.mapPorts g).turn = s.turn := rfl
@[simp] theorem State.mapPorts_exchange (s : State) (g : Port → Port) : (s.mapPorts g).exchange = s.exchange := rfl
@[simp] theorem State.mapPorts_stepCounter (s : State) (g : Port → Port) : (s.mapPorts g).stepCounter = s.stepCounter := rfl
@[simp] theorem State.mapPorts_timerRunning (s : State) (g : Port → Port) : (s.mapPorts g).timerRunning = s.timerRunning := rfl
@[simp] theorem State.mapPorts_resetAsserted (s : State) (g : Port → Port) : (s.mapPorts g).resetAsserted = s.resetAsserted := rfl
@[simp] theorem State.mapPorts_brakes (s : State) (g : Port → Port) : (s.mapPorts g).brakes = s.brakes := rfl
@[simp] theorem State.mapPorts_sounder (s : State) (g : Port → Port) : (s.mapPorts g).sounder = s.sounder := rfl
@[simp] theorem State.mapPorts_faultLine (s : State) (g : Port → Port) : (s.mapPorts g).faultLine = s.faultLine := rfl
@[simp] theorem State.mapPorts_freeIndex (s : State) (g : Port → Port) : (s.mapPorts g).freeIndex = s.freeIndex := rfl
@[simp] theorem State.mapPorts_pending (s : State) (g : Port → Port) : (s.mapPorts g).pending = s.pending := rfl
@[simp] theorem State.mapPorts_flight (s : State) (g : Port → Port) (h : FlightId) : (s.mapPorts g).flight h = s.flight h := rfl
@[simp] theorem State.mapPorts_axis (s : State) (g : Port → Port) (m : AxisId) : (s.mapPorts g).axis m = s.axis m := rfl
@[simp] theorem State.mapPorts_link (s : State) (g : Port → Port) (j : LinkId) : (s.mapPorts g).link j = s.link j := rfl
@[simp] theorem State.mapPorts_slot (s : State) (g : Port → Port) (q : SlotId) : (s.mapPorts g).slot q = s.slot q := rfl
@[simp] theorem State.mapPorts_line (s : State) (g : Port → Port) (y : LineId) : (s.mapPorts g).line y = s.line y := rfl
@[simp] theorem State.mapPorts_brake (s : State) (g : Port → Port) (m : AxisId) : (s.mapPorts g).brake m = s.brake m := rfl

@[simp] theorem State.setEnable_flights (s : State) (st : Station) (b : Bool) : (s.setEnable st b).flights = s.flights := rfl
@[simp] theorem State.setEnable_axes (s : State) (st : Station) (b : Bool) : (s.setEnable st b).axes = s.axes := rfl
@[simp] theorem State.setEnable_links (s : State) (st : Station) (b : Bool) : (s.setEnable st b).links = s.links := rfl
@[simp] theorem State.setEnable_slots (s : State) (st : Station) (b : Bool) : (s.setEnable st b).slots = s.slots := rfl
@[simp] theorem State.setEnable_lines (s : State) (st : Station) (b : Bool) : (s.setEnable st b).lines = s.lines := rfl
@[simp] theorem State.setEnable_ports (s : State) (st : Station) (b : Bool) : (s.setEnable st b).ports = s.ports := rfl
@[simp] theorem State.setEnable_silents (s : State) (st : Station) (b : Bool) : (s.setEnable st b).silents = s.silents := rfl
@[simp] theorem State.setEnable_scanMode (s : State) (st : Station) (b : Bool) : (s.setEnable st b).scanMode = s.scanMode := rfl
@[simp] theorem State.setEnable_scanState (s : State) (st : Station) (b : Bool) : (s.setEnable st b).scanState = s.scanState := rfl
@[simp] theorem State.setEnable_round (s : State) (st : Station) (b : Bool) : (s.setEnable st b).round = s.round := rfl
@[simp] theorem State.setEnable_roundPending (s : State) (st : Station) (b : Bool) : (s.setEnable st b).roundPending = s.roundPending := rfl
@[simp] theorem State.setEnable_turn (s : State) (st : Station) (b : Bool) : (s.setEnable st b).turn = s.turn := rfl
@[simp] theorem State.setEnable_exchange (s : State) (st : Station) (b : Bool) : (s.setEnable st b).exchange = s.exchange := rfl
@[simp] theorem State.setEnable_stepCounter (s : State) (st : Station) (b : Bool) : (s.setEnable st b).stepCounter = s.stepCounter := rfl
@[simp] theorem State.setEnable_timerRunning (s : State) (st : Station) (b : Bool) : (s.setEnable st b).timerRunning = s.timerRunning := rfl
@[simp] theorem State.setEnable_resetAsserted (s : State) (st : Station) (b : Bool) : (s.setEnable st b).resetAsserted = s.resetAsserted := rfl
@[simp] theorem State.setEnable_brakes (s : State) (st : Station) (b : Bool) : (s.setEnable st b).brakes = s.brakes := rfl
@[simp] theorem State.setEnable_sounder (s : State) (st : Station) (b : Bool) : (s.setEnable st b).sounder = s.sounder := rfl
@[simp] theorem State.setEnable_faultLine (s : State) (st : Station) (b : Bool) : (s.setEnable st b).faultLine = s.faultLine := rfl
@[simp] theorem State.setEnable_freeIndex (s : State) (st : Station) (b : Bool) : (s.setEnable st b).freeIndex = s.freeIndex := rfl
@[simp] theorem State.setEnable_pending (s : State) (st : Station) (b : Bool) : (s.setEnable st b).pending = s.pending := rfl
@[simp] theorem State.setEnable_flight (s : State) (st : Station) (b : Bool) (h : FlightId) : (s.setEnable st b).flight h = s.flight h := rfl
@[simp] theorem State.setEnable_axis (s : State) (st : Station) (b : Bool) (m : AxisId) : (s.setEnable st b).axis m = s.axis m := rfl
@[simp] theorem State.setEnable_link (s : State) (st : Station) (b : Bool) (j : LinkId) : (s.setEnable st b).link j = s.link j := rfl
@[simp] theorem State.setEnable_slot (s : State) (st : Station) (b : Bool) (q : SlotId) : (s.setEnable st b).slot q = s.slot q := rfl
@[simp] theorem State.setEnable_line (s : State) (st : Station) (b : Bool) (y : LineId) : (s.setEnable st b).line y = s.line y := rfl
@[simp] theorem State.setEnable_port (s : State) (st : Station) (b : Bool) (u : Station) : (s.setEnable st b).port u = s.port u := rfl
@[simp] theorem State.setEnable_brake (s : State) (st : Station) (b : Bool) (m : AxisId) : (s.setEnable st b).brake m = s.brake m := rfl

@[simp] theorem State.setSilent_flights (s : State) (st : Station) (b : Bool) : (s.setSilent st b).flights = s.flights := rfl
@[simp] theorem State.setSilent_axes (s : State) (st : Station) (b : Bool) : (s.setSilent st b).axes = s.axes := rfl
@[simp] theorem State.setSilent_links (s : State) (st : Station) (b : Bool) : (s.setSilent st b).links = s.links := rfl
@[simp] theorem State.setSilent_slots (s : State) (st : Station) (b : Bool) : (s.setSilent st b).slots = s.slots := rfl
@[simp] theorem State.setSilent_lines (s : State) (st : Station) (b : Bool) : (s.setSilent st b).lines = s.lines := rfl
@[simp] theorem State.setSilent_ports (s : State) (st : Station) (b : Bool) : (s.setSilent st b).ports = s.ports := rfl
@[simp] theorem State.setSilent_enables (s : State) (st : Station) (b : Bool) : (s.setSilent st b).enables = s.enables := rfl
@[simp] theorem State.setSilent_scanMode (s : State) (st : Station) (b : Bool) : (s.setSilent st b).scanMode = s.scanMode := rfl
@[simp] theorem State.setSilent_scanState (s : State) (st : Station) (b : Bool) : (s.setSilent st b).scanState = s.scanState := rfl
@[simp] theorem State.setSilent_round (s : State) (st : Station) (b : Bool) : (s.setSilent st b).round = s.round := rfl
@[simp] theorem State.setSilent_roundPending (s : State) (st : Station) (b : Bool) : (s.setSilent st b).roundPending = s.roundPending := rfl
@[simp] theorem State.setSilent_turn (s : State) (st : Station) (b : Bool) : (s.setSilent st b).turn = s.turn := rfl
@[simp] theorem State.setSilent_exchange (s : State) (st : Station) (b : Bool) : (s.setSilent st b).exchange = s.exchange := rfl
@[simp] theorem State.setSilent_stepCounter (s : State) (st : Station) (b : Bool) : (s.setSilent st b).stepCounter = s.stepCounter := rfl
@[simp] theorem State.setSilent_timerRunning (s : State) (st : Station) (b : Bool) : (s.setSilent st b).timerRunning = s.timerRunning := rfl
@[simp] theorem State.setSilent_resetAsserted (s : State) (st : Station) (b : Bool) : (s.setSilent st b).resetAsserted = s.resetAsserted := rfl
@[simp] theorem State.setSilent_brakes (s : State) (st : Station) (b : Bool) : (s.setSilent st b).brakes = s.brakes := rfl
@[simp] theorem State.setSilent_sounder (s : State) (st : Station) (b : Bool) : (s.setSilent st b).sounder = s.sounder := rfl
@[simp] theorem State.setSilent_faultLine (s : State) (st : Station) (b : Bool) : (s.setSilent st b).faultLine = s.faultLine := rfl
@[simp] theorem State.setSilent_freeIndex (s : State) (st : Station) (b : Bool) : (s.setSilent st b).freeIndex = s.freeIndex := rfl
@[simp] theorem State.setSilent_pending (s : State) (st : Station) (b : Bool) : (s.setSilent st b).pending = s.pending := rfl
@[simp] theorem State.setSilent_flight (s : State) (st : Station) (b : Bool) (h : FlightId) : (s.setSilent st b).flight h = s.flight h := rfl
@[simp] theorem State.setSilent_axis (s : State) (st : Station) (b : Bool) (m : AxisId) : (s.setSilent st b).axis m = s.axis m := rfl
@[simp] theorem State.setSilent_link (s : State) (st : Station) (b : Bool) (j : LinkId) : (s.setSilent st b).link j = s.link j := rfl
@[simp] theorem State.setSilent_slot (s : State) (st : Station) (b : Bool) (q : SlotId) : (s.setSilent st b).slot q = s.slot q := rfl
@[simp] theorem State.setSilent_line (s : State) (st : Station) (b : Bool) (y : LineId) : (s.setSilent st b).line y = s.line y := rfl
@[simp] theorem State.setSilent_port (s : State) (st : Station) (b : Bool) (u : Station) : (s.setSilent st b).port u = s.port u := rfl
@[simp] theorem State.setSilent_brake (s : State) (st : Station) (b : Bool) (m : AxisId) : (s.setSilent st b).brake m = s.brake m := rfl

/-! ### What the flag operations and the first shared operations leave alone -/

@[simp] theorem raiseFlight_flights (s : State) (f : FlightId) (g : FlightNotices → FlightNotices) : (raiseFlight f g s).flights = s.flights := rfl
@[simp] theorem raiseFlight_axes (s : State) (f : FlightId) (g : FlightNotices → FlightNotices) : (raiseFlight f g s).axes = s.axes := rfl
@[simp] theorem raiseFlight_links (s : State) (f : FlightId) (g : FlightNotices → FlightNotices) : (raiseFlight f g s).links = s.links := rfl
@[simp] theorem raiseFlight_slots (s : State) (f : FlightId) (g : FlightNotices → FlightNotices) : (raiseFlight f g s).slots = s.slots := rfl
@[simp] theorem raiseFlight_lines (s : State) (f : FlightId) (g : FlightNotices → FlightNotices) : (raiseFlight f g s).lines = s.lines := rfl
@[simp] theorem raiseFlight_enables (s : State) (f : FlightId) (g : FlightNotices → FlightNotices) : (raiseFlight f g s).enables = s.enables := rfl
@[simp] theorem raiseFlight_silents (s : State) (f : FlightId) (g : FlightNotices → FlightNotices) : (raiseFlight f g s).silents = s.silents := rfl
@[simp] theorem raiseFlight_scanMode (s : State) (f : FlightId) (g : FlightNotices → FlightNotices) : (raiseFlight f g s).scanMode = s.scanMode := rfl
@[simp] theorem raiseFlight_scanState (s : State) (f : FlightId) (g : FlightNotices → FlightNotices) : (raiseFlight f g s).scanState = s.scanState := rfl
@[simp] theorem raiseFlight_round (s : State) (f : FlightId) (g : FlightNotices → FlightNotices) : (raiseFlight f g s).round = s.round := rfl
@[simp] theorem raiseFlight_roundPending (s : State) (f : FlightId) (g : FlightNotices → FlightNotices) : (raiseFlight f g s).roundPending = s.roundPending := rfl
@[simp] theorem raiseFlight_turn (s : State) (f : FlightId) (g : FlightNotices → FlightNotices) : (raiseFlight f g s).turn = s.turn := rfl
@[simp] theorem raiseFlight_exchange (s : State) (f : FlightId) (g : FlightNotices → FlightNotices) : (raiseFlight f g s).exchange = s.exchange := rfl
@[simp] theorem raiseFlight_stepCounter (s : State) (f : FlightId) (g : FlightNotices → FlightNotices) : (raiseFlight f g s).stepCounter = s.stepCounter := rfl
@[simp] theorem raiseFlight_timerRunning (s : State) (f : FlightId) (g : FlightNotices → FlightNotices) : (raiseFlight f g s).timerRunning = s.timerRunning := rfl
@[simp] theorem raiseFlight_resetAsserted (s : State) (f : FlightId) (g : FlightNotices → FlightNotices) : (raiseFlight f g s).resetAsserted = s.resetAsserted := rfl
@[simp] theorem raiseFlight_brakes (s : State) (f : FlightId) (g : FlightNotices → FlightNotices) : (raiseFlight f g s).brakes = s.brakes := rfl
@[simp] theorem raiseFlight_sounder (s : State) (f : FlightId) (g : FlightNotices → FlightNotices) : (raiseFlight f g s).sounder = s.sounder := rfl
@[simp] theorem raiseFlight_faultLine (s : State) (f : FlightId) (g : FlightNotices → FlightNotices) : (raiseFlight f g s).faultLine = s.faultLine := rfl
@[simp] theorem raiseFlight_freeIndex (s : State) (f : FlightId) (g : FlightNotices → FlightNotices) : (raiseFlight f g s).freeIndex = s.freeIndex := rfl
@[simp] theorem raiseFlight_pending (s : State) (f : FlightId) (g : FlightNotices → FlightNotices) : (raiseFlight f g s).pending = s.pending := rfl
@[simp] theorem raiseFlight_flight (s : State) (f : FlightId) (g : FlightNotices → FlightNotices) (h : FlightId) : (raiseFlight f g s).flight h = s.flight h := rfl
@[simp] theorem raiseFlight_axis (s : State) (f : FlightId) (g : FlightNotices → FlightNotices) (m : AxisId) : (raiseFlight f g s).axis m = s.axis m := rfl
@[simp] theorem raiseFlight_link (s : State) (f : FlightId) (g : FlightNotices → FlightNotices) (j : LinkId) : (raiseFlight f g s).link j = s.link j := rfl
@[simp] theorem raiseFlight_slot (s : State) (f : FlightId) (g : FlightNotices → FlightNotices) (q : SlotId) : (raiseFlight f g s).slot q = s.slot q := rfl
@[simp] theorem raiseFlight_line (s : State) (f : FlightId) (g : FlightNotices → FlightNotices) (y : LineId) : (raiseFlight f g s).line y = s.line y := rfl
@[simp] theorem raiseFlight_brake (s : State) (f : FlightId) (g : FlightNotices → FlightNotices) (m : AxisId) : (raiseFlight f g s).brake m = s.brake m := rfl

@[simp] theorem raiseState_flights (s : State) (f : FlightId) : (raiseState f s).flights = s.flights := rfl
@[simp] theorem raiseState_axes (s : State) (f : FlightId) : (raiseState f s).axes = s.axes := rfl
@[simp] theorem raiseState_links (s : State) (f : FlightId) : (raiseState f s).links = s.links := rfl
@[simp] theorem raiseState_slots (s : State) (f : FlightId) : (raiseState f s).slots = s.slots := rfl
@[simp] theorem raiseState_lines (s : State) (f : FlightId) : (raiseState f s).lines = s.lines := rfl
@[simp] theorem raiseState_enables (s : State) (f : FlightId) : (raiseState f s).enables = s.enables := rfl
@[simp] theorem raiseState_silents (s : State) (f : FlightId) : (raiseState f s).silents = s.silents := rfl
@[simp] theorem raiseState_scanMode (s : State) (f : FlightId) : (raiseState f s).scanMode = s.scanMode := rfl
@[simp] theorem raiseState_scanState (s : State) (f : FlightId) : (raiseState f s).scanState = s.scanState := rfl
@[simp] theorem raiseState_round (s : State) (f : FlightId) : (raiseState f s).round = s.round := rfl
@[simp] theorem raiseState_roundPending (s : State) (f : FlightId) : (raiseState f s).roundPending = s.roundPending := rfl
@[simp] theorem raiseState_turn (s : State) (f : FlightId) : (raiseState f s).turn = s.turn := rfl
@[simp] theorem raiseState_exchange (s : State) (f : FlightId) : (raiseState f s).exchange = s.exchange := rfl
@[simp] theorem raiseState_stepCounter (s : State) (f : FlightId) : (raiseState f s).stepCounter = s.stepCounter := rfl
@[simp] theorem raiseState_timerRunning (s : State) (f : FlightId) : (raiseState f s).timerRunning = s.timerRunning := rfl
@[simp] theorem raiseState_resetAsserted (s : State) (f : FlightId) : (raiseState f s).resetAsserted = s.resetAsserted := rfl
@[simp] theorem raiseState_brakes (s : State) (f : FlightId) : (raiseState f s).brakes = s.brakes := rfl
@[simp] theorem raiseState_sounder (s : State) (f : FlightId) : (raiseState f s).sounder = s.sounder := rfl
@[simp] theorem raiseState_faultLine (s : State) (f : FlightId) : (raiseState f s).faultLine = s.faultLine := rfl
@[simp] theorem raiseState_freeIndex (s : State) (f : FlightId) : (raiseState f s).freeIndex = s.freeIndex := rfl
@[simp] theorem raiseState_pending (s : State) (f : FlightId) : (raiseState f s).pending = s.pending := rfl
@[simp] theorem raiseState_flight (s : State) (f : FlightId) (h : FlightId) : (raiseState f s).flight h = s.flight h := rfl
@[simp] theorem raiseState_axis (s : State) (f : FlightId) (m : AxisId) : (raiseState f s).axis m = s.axis m := rfl
@[simp] theorem raiseState_link (s : State) (f : FlightId) (j : LinkId) : (raiseState f s).link j = s.link j := rfl
@[simp] theorem raiseState_slot (s : State) (f : FlightId) (q : SlotId) : (raiseState f s).slot q = s.slot q := rfl
@[simp] theorem raiseState_line (s : State) (f : FlightId) (y : LineId) : (raiseState f s).line y = s.line y := rfl
@[simp] theorem raiseState_brake (s : State) (f : FlightId) (m : AxisId) : (raiseState f s).brake m = s.brake m := rfl

@[simp] theorem raiseDone_flights (s : State) (f : FlightId) : (raiseDone f s).flights = s.flights := rfl
@[simp] theorem raiseDone_axes (s : State) (f : FlightId) : (raiseDone f s).axes = s.axes := rfl
@[simp] theorem raiseDone_links (s : State) (f : FlightId) : (raiseDone f s).links = s.links := rfl
@[simp] theorem raiseDone_slots (s : State) (f : FlightId) : (raiseDone f s).slots = s.slots := rfl
@[simp] theorem raiseDone_lines (s : State) (f : FlightId) : (raiseDone f s).lines = s.lines := rfl
@[simp] theorem raiseDone_enables (s : State) (f : FlightId) : (raiseDone f s).enables = s.enables := rfl
@[simp] theorem raiseDone_silents (s : State) (f : FlightId) : (raiseDone f s).silents = s.silents := rfl
@[simp] theorem raiseDone_scanMode (s : State) (f : FlightId) : (raiseDone f s).scanMode = s.scanMode := rfl
@[simp] theorem raiseDone_scanState (s : State) (f : FlightId) : (raiseDone f s).scanState = s.scanState := rfl
@[simp] theorem raiseDone_round (s : State) (f : FlightId) : (raiseDone f s).round = s.round := rfl
@[simp] theorem raiseDone_roundPending (s : State) (f : FlightId) : (raiseDone f s).roundPending = s.roundPending := rfl
@[simp] theorem raiseDone_turn (s : State) (f : FlightId) : (raiseDone f s).turn = s.turn := rfl
@[simp] theorem raiseDone_exchange (s : State) (f : FlightId) : (raiseDone f s).exchange = s.exchange := rfl
@[simp] theorem raiseDone_stepCounter (s : State) (f : FlightId) : (raiseDone f s).stepCounter = s.stepCounter := rfl
@[simp] theorem raiseDone_timerRunning (s : State) (f : FlightId) : (raiseDone f s).timerRunning = s.timerRunning := rfl
@[simp] theorem raiseDone_resetAsserted (s : State) (f : FlightId) : (raiseDone f s).resetAsserted = s.resetAsserted := rfl
@[simp] theorem raiseDone_brakes (s : State) (f : FlightId) : (raiseDone f s).brakes = s.brakes := rfl
@[simp] theorem raiseDone_sounder (s : State) (f : FlightId) : (raiseDone f s).sounder = s.sounder := rfl
@[simp] theorem raiseDone_faultLine (s : State) (f : FlightId) : (raiseDone f s).faultLine = s.faultLine := rfl
@[simp] theorem raiseDone_freeIndex (s : State) (f : FlightId) : (raiseDone f s).freeIndex = s.freeIndex := rfl
@[simp] theorem raiseDone_pending (s : State) (f : FlightId) : (raiseDone f s).pending = s.pending := rfl
@[simp] theorem raiseDone_flight (s : State) (f : FlightId) (h : FlightId) : (raiseDone f s).flight h = s.flight h := rfl
@[simp] theorem raiseDone_axis (s : State) (f : FlightId) (m : AxisId) : (raiseDone f s).axis m = s.axis m := rfl
@[simp] theorem raiseDone_link (s : State) (f : FlightId) (j : LinkId) : (raiseDone f s).link j = s.link j := rfl
@[simp] theorem raiseDone_slot (s : State) (f : FlightId) (q : SlotId) : (raiseDone f s).slot q = s.slot q := rfl
@[simp] theorem raiseDone_line (s : State) (f : FlightId) (y : LineId) : (raiseDone f s).line y = s.line y := rfl
@[simp] theorem raiseDone_brake (s : State) (f : FlightId) (m : AxisId) : (raiseDone f s).brake m = s.brake m := rfl

@[simp] theorem raiseLow_flights (s : State) (f : FlightId) : (raiseLow f s).flights = s.flights := rfl
@[simp] theorem raiseLow_axes (s : State) (f : FlightId) : (raiseLow f s).axes = s.axes := rfl
@[simp] theorem raiseLow_links (s : State) (f : FlightId) : (raiseLow f s).links = s.links := rfl
@[simp] theorem raiseLow_slots (s : State) (f : FlightId) : (raiseLow f s).slots = s.slots := rfl
@[simp] theorem raiseLow_lines (s : State) (f : FlightId) : (raiseLow f s).lines = s.lines := rfl
@[simp] theorem raiseLow_enables (s : State) (f : FlightId) : (raiseLow f s).enables = s.enables := rfl
@[simp] theorem raiseLow_silents (s : State) (f : FlightId) : (raiseLow f s).silents = s.silents := rfl
@[simp] theorem raiseLow_scanMode (s : State) (f : FlightId) : (raiseLow f s).scanMode = s.scanMode := rfl
@[simp] theorem raiseLow_scanState (s : State) (f : FlightId) : (raiseLow f s).scanState = s.scanState := rfl
@[simp] theorem raiseLow_round (s : State) (f : FlightId) : (raiseLow f s).round = s.round := rfl
@[simp] theorem raiseLow_roundPending (s : State) (f : FlightId) : (raiseLow f s).roundPending = s.roundPending := rfl
@[simp] theorem raiseLow_turn (s : State) (f : FlightId) : (raiseLow f s).turn = s.turn := rfl
@[simp] theorem raiseLow_exchange (s : State) (f : FlightId) : (raiseLow f s).exchange = s.exchange := rfl
@[simp] theorem raiseLow_stepCounter (s : State) (f : FlightId) : (raiseLow f s).stepCounter = s.stepCounter := rfl
@[simp] theorem raiseLow_timerRunning (s : State) (f : FlightId) : (raiseLow f s).timerRunning = s.timerRunning := rfl
@[simp] theorem raiseLow_resetAsserted (s : State) (f : FlightId) : (raiseLow f s).resetAsserted = s.resetAsserted := rfl
@[simp] theorem raiseLow_brakes (s : State) (f : FlightId) : (raiseLow f s).brakes = s.brakes := rfl
@[simp] theorem raiseLow_sounder (s : State) (f : FlightId) : (raiseLow f s).sounder = s.sounder := rfl
@[simp] theorem raiseLow_faultLine (s : State) (f : FlightId) : (raiseLow f s).faultLine = s.faultLine := rfl
@[simp] theorem raiseLow_freeIndex (s : State) (f : FlightId) : (raiseLow f s).freeIndex = s.freeIndex := rfl
@[simp] theorem raiseLow_pending (s : State) (f : FlightId) : (raiseLow f s).pending = s.pending := rfl
@[simp] theorem raiseLow_flight (s : State) (f : FlightId) (h : FlightId) : (raiseLow f s).flight h = s.flight h := rfl
@[simp] theorem raiseLow_axis (s : State) (f : FlightId) (m : AxisId) : (raiseLow f s).axis m = s.axis m := rfl
@[simp] theorem raiseLow_link (s : State) (f : FlightId) (j : LinkId) : (raiseLow f s).link j = s.link j := rfl
@[simp] theorem raiseLow_slot (s : State) (f : FlightId) (q : SlotId) : (raiseLow f s).slot q = s.slot q := rfl
@[simp] theorem raiseLow_line (s : State) (f : FlightId) (y : LineId) : (raiseLow f s).line y = s.line y := rfl
@[simp] theorem raiseLow_brake (s : State) (f : FlightId) (m : AxisId) : (raiseLow f s).brake m = s.brake m := rfl

@[simp] theorem raiseLost_flights (s : State) (f : FlightId) : (raiseLost f s).flights = s.flights := rfl
@[simp] theorem raiseLost_axes (s : State) (f : FlightId) : (raiseLost f s).axes = s.axes := rfl
@[simp] theorem raiseLost_links (s : State) (f : FlightId) : (raiseLost f s).links = s.links := rfl
@[simp] theorem raiseLost_slots (s : State) (f : FlightId) : (raiseLost f s).slots = s.slots := rfl
@[simp] theorem raiseLost_lines (s : State) (f : FlightId) : (raiseLost f s).lines = s.lines := rfl
@[simp] theorem raiseLost_enables (s : State) (f : FlightId) : (raiseLost f s).enables = s.enables := rfl
@[simp] theorem raiseLost_silents (s : State) (f : FlightId) : (raiseLost f s).silents = s.silents := rfl
@[simp] theorem raiseLost_scanMode (s : State) (f : FlightId) : (raiseLost f s).scanMode = s.scanMode := rfl
@[simp] theorem raiseLost_scanState (s : State) (f : FlightId) : (raiseLost f s).scanState = s.scanState := rfl
@[simp] theorem raiseLost_round (s : State) (f : FlightId) : (raiseLost f s).round = s.round := rfl
@[simp] theorem raiseLost_roundPending (s : State) (f : FlightId) : (raiseLost f s).roundPending = s.roundPending := rfl
@[simp] theorem raiseLost_turn (s : State) (f : FlightId) : (raiseLost f s).turn = s.turn := rfl
@[simp] theorem raiseLost_exchange (s : State) (f : FlightId) : (raiseLost f s).exchange = s.exchange := rfl
@[simp] theorem raiseLost_stepCounter (s : State) (f : FlightId) : (raiseLost f s).stepCounter = s.stepCounter := rfl
@[simp] theorem raiseLost_timerRunning (s : State) (f : FlightId) : (raiseLost f s).timerRunning = s.timerRunning := rfl
@[simp] theorem raiseLost_resetAsserted (s : State) (f : FlightId) : (raiseLost f s).resetAsserted = s.resetAsserted := rfl
@[simp] theorem raiseLost_brakes (s : State) (f : FlightId) : (raiseLost f s).brakes = s.brakes := rfl
@[simp] theorem raiseLost_sounder (s : State) (f : FlightId) : (raiseLost f s).sounder = s.sounder := rfl
@[simp] theorem raiseLost_faultLine (s : State) (f : FlightId) : (raiseLost f s).faultLine = s.faultLine := rfl
@[simp] theorem raiseLost_freeIndex (s : State) (f : FlightId) : (raiseLost f s).freeIndex = s.freeIndex := rfl
@[simp] theorem raiseLost_pending (s : State) (f : FlightId) : (raiseLost f s).pending = s.pending := rfl
@[simp] theorem raiseLost_flight (s : State) (f : FlightId) (h : FlightId) : (raiseLost f s).flight h = s.flight h := rfl
@[simp] theorem raiseLost_axis (s : State) (f : FlightId) (m : AxisId) : (raiseLost f s).axis m = s.axis m := rfl
@[simp] theorem raiseLost_link (s : State) (f : FlightId) (j : LinkId) : (raiseLost f s).link j = s.link j := rfl
@[simp] theorem raiseLost_slot (s : State) (f : FlightId) (q : SlotId) : (raiseLost f s).slot q = s.slot q := rfl
@[simp] theorem raiseLost_line (s : State) (f : FlightId) (y : LineId) : (raiseLost f s).line y = s.line y := rfl
@[simp] theorem raiseLost_brake (s : State) (f : FlightId) (m : AxisId) : (raiseLost f s).brake m = s.brake m := rfl

@[simp] theorem raiseReject_flights (s : State) (f : FlightId) : (raiseReject f s).flights = s.flights := rfl
@[simp] theorem raiseReject_axes (s : State) (f : FlightId) : (raiseReject f s).axes = s.axes := rfl
@[simp] theorem raiseReject_links (s : State) (f : FlightId) : (raiseReject f s).links = s.links := rfl
@[simp] theorem raiseReject_slots (s : State) (f : FlightId) : (raiseReject f s).slots = s.slots := rfl
@[simp] theorem raiseReject_lines (s : State) (f : FlightId) : (raiseReject f s).lines = s.lines := rfl
@[simp] theorem raiseReject_enables (s : State) (f : FlightId) : (raiseReject f s).enables = s.enables := rfl
@[simp] theorem raiseReject_silents (s : State) (f : FlightId) : (raiseReject f s).silents = s.silents := rfl
@[simp] theorem raiseReject_scanMode (s : State) (f : FlightId) : (raiseReject f s).scanMode = s.scanMode := rfl
@[simp] theorem raiseReject_scanState (s : State) (f : FlightId) : (raiseReject f s).scanState = s.scanState := rfl
@[simp] theorem raiseReject_round (s : State) (f : FlightId) : (raiseReject f s).round = s.round := rfl
@[simp] theorem raiseReject_roundPending (s : State) (f : FlightId) : (raiseReject f s).roundPending = s.roundPending := rfl
@[simp] theorem raiseReject_turn (s : State) (f : FlightId) : (raiseReject f s).turn = s.turn := rfl
@[simp] theorem raiseReject_exchange (s : State) (f : FlightId) : (raiseReject f s).exchange = s.exchange := rfl
@[simp] theorem raiseReject_stepCounter (s : State) (f : FlightId) : (raiseReject f s).stepCounter = s.stepCounter := rfl
@[simp] theorem raiseReject_timerRunning (s : State) (f : FlightId) : (raiseReject f s).timerRunning = s.timerRunning := rfl
@[simp] theorem raiseReject_resetAsserted (s : State) (f : FlightId) : (raiseReject f s).resetAsserted = s.resetAsserted := rfl
@[simp] theorem raiseReject_brakes (s : State) (f : FlightId) : (raiseReject f s).brakes = s.brakes := rfl
@[simp] theorem raiseReject_sounder (s : State) (f : FlightId) : (raiseReject f s).sounder = s.sounder := rfl
@[simp] theorem raiseReject_faultLine (s : State) (f : FlightId) : (raiseReject f s).faultLine = s.faultLine := rfl
@[simp] theorem raiseReject_freeIndex (s : State) (f : FlightId) : (raiseReject f s).freeIndex = s.freeIndex := rfl
@[simp] theorem raiseReject_pending (s : State) (f : FlightId) : (raiseReject f s).pending = s.pending := rfl
@[simp] theorem raiseReject_flight (s : State) (f : FlightId) (h : FlightId) : (raiseReject f s).flight h = s.flight h := rfl
@[simp] theorem raiseReject_axis (s : State) (f : FlightId) (m : AxisId) : (raiseReject f s).axis m = s.axis m := rfl
@[simp] theorem raiseReject_link (s : State) (f : FlightId) (j : LinkId) : (raiseReject f s).link j = s.link j := rfl
@[simp] theorem raiseReject_slot (s : State) (f : FlightId) (q : SlotId) : (raiseReject f s).slot q = s.slot q := rfl
@[simp] theorem raiseReject_line (s : State) (f : FlightId) (y : LineId) : (raiseReject f s).line y = s.line y := rfl
@[simp] theorem raiseReject_brake (s : State) (f : FlightId) (m : AxisId) : (raiseReject f s).brake m = s.brake m := rfl

@[simp] theorem raiseLineChange_flights (s : State) (n : LineId) : (raiseLineChange n s).flights = s.flights := rfl
@[simp] theorem raiseLineChange_axes (s : State) (n : LineId) : (raiseLineChange n s).axes = s.axes := rfl
@[simp] theorem raiseLineChange_links (s : State) (n : LineId) : (raiseLineChange n s).links = s.links := rfl
@[simp] theorem raiseLineChange_slots (s : State) (n : LineId) : (raiseLineChange n s).slots = s.slots := rfl
@[simp] theorem raiseLineChange_lines (s : State) (n : LineId) : (raiseLineChange n s).lines = s.lines := rfl
@[simp] theorem raiseLineChange_enables (s : State) (n : LineId) : (raiseLineChange n s).enables = s.enables := rfl
@[simp] theorem raiseLineChange_silents (s : State) (n : LineId) : (raiseLineChange n s).silents = s.silents := rfl
@[simp] theorem raiseLineChange_scanMode (s : State) (n : LineId) : (raiseLineChange n s).scanMode = s.scanMode := rfl
@[simp] theorem raiseLineChange_scanState (s : State) (n : LineId) : (raiseLineChange n s).scanState = s.scanState := rfl
@[simp] theorem raiseLineChange_round (s : State) (n : LineId) : (raiseLineChange n s).round = s.round := rfl
@[simp] theorem raiseLineChange_roundPending (s : State) (n : LineId) : (raiseLineChange n s).roundPending = s.roundPending := rfl
@[simp] theorem raiseLineChange_turn (s : State) (n : LineId) : (raiseLineChange n s).turn = s.turn := rfl
@[simp] theorem raiseLineChange_exchange (s : State) (n : LineId) : (raiseLineChange n s).exchange = s.exchange := rfl
@[simp] theorem raiseLineChange_stepCounter (s : State) (n : LineId) : (raiseLineChange n s).stepCounter = s.stepCounter := rfl
@[simp] theorem raiseLineChange_timerRunning (s : State) (n : LineId) : (raiseLineChange n s).timerRunning = s.timerRunning := rfl
@[simp] theorem raiseLineChange_resetAsserted (s : State) (n : LineId) : (raiseLineChange n s).resetAsserted = s.resetAsserted := rfl
@[simp] theorem raiseLineChange_brakes (s : State) (n : LineId) : (raiseLineChange n s).brakes = s.brakes := rfl
@[simp] theorem raiseLineChange_sounder (s : State) (n : LineId) : (raiseLineChange n s).sounder = s.sounder := rfl
@[simp] theorem raiseLineChange_faultLine (s : State) (n : LineId) : (raiseLineChange n s).faultLine = s.faultLine := rfl
@[simp] theorem raiseLineChange_freeIndex (s : State) (n : LineId) : (raiseLineChange n s).freeIndex = s.freeIndex := rfl
@[simp] theorem raiseLineChange_pending (s : State) (n : LineId) : (raiseLineChange n s).pending = s.pending := rfl
@[simp] theorem raiseLineChange_flight (s : State) (n : LineId) (h : FlightId) : (raiseLineChange n s).flight h = s.flight h := rfl
@[simp] theorem raiseLineChange_axis (s : State) (n : LineId) (m : AxisId) : (raiseLineChange n s).axis m = s.axis m := rfl
@[simp] theorem raiseLineChange_link (s : State) (n : LineId) (j : LinkId) : (raiseLineChange n s).link j = s.link j := rfl
@[simp] theorem raiseLineChange_slot (s : State) (n : LineId) (q : SlotId) : (raiseLineChange n s).slot q = s.slot q := rfl
@[simp] theorem raiseLineChange_line (s : State) (n : LineId) (y : LineId) : (raiseLineChange n s).line y = s.line y := rfl
@[simp] theorem raiseLineChange_brake (s : State) (n : LineId) (m : AxisId) : (raiseLineChange n s).brake m = s.brake m := rfl

@[simp] theorem raiseFresh_flights (s : State) (k : SlotId) : (raiseFresh k s).flights = s.flights := rfl
@[simp] theorem raiseFresh_axes (s : State) (k : SlotId) : (raiseFresh k s).axes = s.axes := rfl
@[simp] theorem raiseFresh_links (s : State) (k : SlotId) : (raiseFresh k s).links = s.links := rfl
@[simp] theorem raiseFresh_slots (s : State) (k : SlotId) : (raiseFresh k s).slots = s.slots := rfl
@[simp] theorem raiseFresh_lines (s : State) (k : SlotId) : (raiseFresh k s).lines = s.lines := rfl
@[simp] theorem raiseFresh_enables (s : State) (k : SlotId) : (raiseFresh k s).enables = s.enables := rfl
@[simp] theorem raiseFresh_silents (s : State) (k : SlotId) : (raiseFresh k s).silents = s.silents := rfl
@[simp] theorem raiseFresh_scanMode (s : State) (k : SlotId) : (raiseFresh k s).scanMode = s.scanMode := rfl
@[simp] theorem raiseFresh_scanState (s : State) (k : SlotId) : (raiseFresh k s).scanState = s.scanState := rfl
@[simp] theorem raiseFresh_round (s : State) (k : SlotId) : (raiseFresh k s).round = s.round := rfl
@[simp] theorem raiseFresh_roundPending (s : State) (k : SlotId) : (raiseFresh k s).roundPending = s.roundPending := rfl
@[simp] theorem raiseFresh_turn (s : State) (k : SlotId) : (raiseFresh k s).turn = s.turn := rfl
@[simp] theorem raiseFresh_exchange (s : State) (k : SlotId) : (raiseFresh k s).exchange = s.exchange := rfl
@[simp] theorem raiseFresh_stepCounter (s : State) (k : SlotId) : (raiseFresh k s).stepCounter = s.stepCounter := rfl
@[simp] theorem raiseFresh_timerRunning (s : State) (k : SlotId) : (raiseFresh k s).timerRunning = s.timerRunning := rfl
@[simp] theorem raiseFresh_resetAsserted (s : State) (k : SlotId) : (raiseFresh k s).resetAsserted = s.resetAsserted := rfl
@[simp] theorem raiseFresh_brakes (s : State) (k : SlotId) : (raiseFresh k s).brakes = s.brakes := rfl
@[simp] theorem raiseFresh_sounder (s : State) (k : SlotId) : (raiseFresh k s).sounder = s.sounder := rfl
@[simp] theorem raiseFresh_faultLine (s : State) (k : SlotId) : (raiseFresh k s).faultLine = s.faultLine := rfl
@[simp] theorem raiseFresh_freeIndex (s : State) (k : SlotId) : (raiseFresh k s).freeIndex = s.freeIndex := rfl
@[simp] theorem raiseFresh_pending (s : State) (k : SlotId) : (raiseFresh k s).pending = s.pending := rfl
@[simp] theorem raiseFresh_flight (s : State) (k : SlotId) (h : FlightId) : (raiseFresh k s).flight h = s.flight h := rfl
@[simp] theorem raiseFresh_axis (s : State) (k : SlotId) (m : AxisId) : (raiseFresh k s).axis m = s.axis m := rfl
@[simp] theorem raiseFresh_link (s : State) (k : SlotId) (j : LinkId) : (raiseFresh k s).link j = s.link j := rfl
@[simp] theorem raiseFresh_slot (s : State) (k : SlotId) (q : SlotId) : (raiseFresh k s).slot q = s.slot q := rfl
@[simp] theorem raiseFresh_line (s : State) (k : SlotId) (y : LineId) : (raiseFresh k s).line y = s.line y := rfl
@[simp] theorem raiseFresh_brake (s : State) (k : SlotId) (m : AxisId) : (raiseFresh k s).brake m = s.brake m := rfl

@[simp] theorem discardFrame_flights (s : State) (st : Station) (g : ErrorFlags → ErrorFlags) : (discardFrame st g s).flights = s.flights := rfl
@[simp] theorem discardFrame_axes (s : State) (st : Station) (g : ErrorFlags → ErrorFlags) : (discardFrame st g s).axes = s.axes := rfl
@[simp] theorem discardFrame_links (s : State) (st : Station) (g : ErrorFlags → ErrorFlags) : (discardFrame st g s).links = s.links := rfl
@[simp] theorem discardFrame_slots (s : State) (st : Station) (g : ErrorFlags → ErrorFlags) : (discardFrame st g s).slots = s.slots := rfl
@[simp] theorem discardFrame_lines (s : State) (st : Station) (g : ErrorFlags → ErrorFlags) : (discardFrame st g s).lines = s.lines := rfl
@[simp] theorem discardFrame_enables (s : State) (st : Station) (g : ErrorFlags → ErrorFlags) : (discardFrame st g s).enables = s.enables := rfl
@[simp] theorem discardFrame_silents (s : State) (st : Station) (g : ErrorFlags → ErrorFlags) : (discardFrame st g s).silents = s.silents := rfl
@[simp] theorem discardFrame_scanMode (s : State) (st : Station) (g : ErrorFlags → ErrorFlags) : (discardFrame st g s).scanMode = s.scanMode := rfl
@[simp] theorem discardFrame_scanState (s : State) (st : Station) (g : ErrorFlags → ErrorFlags) : (discardFrame st g s).scanState = s.scanState := rfl
@[simp] theorem discardFrame_round (s : State) (st : Station) (g : ErrorFlags → ErrorFlags) : (discardFrame st g s).round = s.round := rfl
@[simp] theorem discardFrame_roundPending (s : State) (st : Station) (g : ErrorFlags → ErrorFlags) : (discardFrame st g s).roundPending = s.roundPending := rfl
@[simp] theorem discardFrame_turn (s : State) (st : Station) (g : ErrorFlags → ErrorFlags) : (discardFrame st g s).turn = s.turn := rfl
@[simp] theorem discardFrame_exchange (s : State) (st : Station) (g : ErrorFlags → ErrorFlags) : (discardFrame st g s).exchange = s.exchange := rfl
@[simp] theorem discardFrame_stepCounter (s : State) (st : Station) (g : ErrorFlags → ErrorFlags) : (discardFrame st g s).stepCounter = s.stepCounter := rfl
@[simp] theorem discardFrame_timerRunning (s : State) (st : Station) (g : ErrorFlags → ErrorFlags) : (discardFrame st g s).timerRunning = s.timerRunning := rfl
@[simp] theorem discardFrame_resetAsserted (s : State) (st : Station) (g : ErrorFlags → ErrorFlags) : (discardFrame st g s).resetAsserted = s.resetAsserted := rfl
@[simp] theorem discardFrame_brakes (s : State) (st : Station) (g : ErrorFlags → ErrorFlags) : (discardFrame st g s).brakes = s.brakes := rfl
@[simp] theorem discardFrame_sounder (s : State) (st : Station) (g : ErrorFlags → ErrorFlags) : (discardFrame st g s).sounder = s.sounder := rfl
@[simp] theorem discardFrame_faultLine (s : State) (st : Station) (g : ErrorFlags → ErrorFlags) : (discardFrame st g s).faultLine = s.faultLine := rfl
@[simp] theorem discardFrame_freeIndex (s : State) (st : Station) (g : ErrorFlags → ErrorFlags) : (discardFrame st g s).freeIndex = s.freeIndex := rfl
@[simp] theorem discardFrame_pending (s : State) (st : Station) (g : ErrorFlags → ErrorFlags) : (discardFrame st g s).pending = s.pending := rfl
@[simp] theorem discardFrame_flight (s : State) (st : Station) (g : ErrorFlags → ErrorFlags) (h : FlightId) : (discardFrame st g s).flight h = s.flight h := rfl
@[simp] theorem discardFrame_axis (s : State) (st : Station) (g : ErrorFlags → ErrorFlags) (m : AxisId) : (discardFrame st g s).axis m = s.axis m := rfl
@[simp] theorem discardFrame_link (s : State) (st : Station) (g : ErrorFlags → ErrorFlags) (j : LinkId) : (discardFrame st g s).link j = s.link j := rfl
@[simp] theorem discardFrame_slot (s : State) (st : Station) (g : ErrorFlags → ErrorFlags) (q : SlotId) : (discardFrame st g s).slot q = s.slot q := rfl
@[simp] theorem discardFrame_line (s : State) (st : Station) (g : ErrorFlags → ErrorFlags) (y : LineId) : (discardFrame st g s).line y = s.line y := rfl
@[simp] theorem discardFrame_brake (s : State) (st : Station) (g : ErrorFlags → ErrorFlags) (m : AxisId) : (discardFrame st g s).brake m = s.brake m := rfl

@[simp] theorem clearNotices_flights (s : State) (st : Station) : (clearNotices st s).flights = s.flights := rfl
@[simp] theorem clearNotices_axes (s : State) (st : Station) : (clearNotices st s).axes = s.axes := rfl
@[simp] theorem clearNotices_links (s : State) (st : Station) : (clearNotices st s).links = s.links := rfl
@[simp] theorem clearNotices_slots (s : State) (st : Station) : (clearNotices st s).slots = s.slots := rfl
@[simp] theorem clearNotices_lines (s : State) (st : Station) : (clearNotices st s).lines = s.lines := rfl
@[simp] theorem clearNotices_enables (s : State) (st : Station) : (clearNotices st s).enables = s.enables := rfl
@[simp] theorem clearNotices_silents (s : State) (st : Station) : (clearNotices st s).silents = s.silents := rfl
@[simp] theorem clearNotices_scanMode (s : State) (st : Station) : (clearNotices st s).scanMode = s.scanMode := rfl
@[simp] theorem clearNotices_scanState (s : State) (st : Station) : (clearNotices st s).scanState = s.scanState := rfl
@[simp] theorem clearNotices_round (s : State) (st : Station) : (clearNotices st s).round = s.round := rfl
@[simp] theorem clearNotices_roundPending (s : State) (st : Station) : (clearNotices st s).roundPending = s.roundPending := rfl
@[simp] theorem clearNotices_turn (s : State) (st : Station) : (clearNotices st s).turn = s.turn := rfl
@[simp] theorem clearNotices_exchange (s : State) (st : Station) : (clearNotices st s).exchange = s.exchange := rfl
@[simp] theorem clearNotices_stepCounter (s : State) (st : Station) : (clearNotices st s).stepCounter = s.stepCounter := rfl
@[simp] theorem clearNotices_timerRunning (s : State) (st : Station) : (clearNotices st s).timerRunning = s.timerRunning := rfl
@[simp] theorem clearNotices_resetAsserted (s : State) (st : Station) : (clearNotices st s).resetAsserted = s.resetAsserted := rfl
@[simp] theorem clearNotices_brakes (s : State) (st : Station) : (clearNotices st s).brakes = s.brakes := rfl
@[simp] theorem clearNotices_sounder (s : State) (st : Station) : (clearNotices st s).sounder = s.sounder := rfl
@[simp] theorem clearNotices_faultLine (s : State) (st : Station) : (clearNotices st s).faultLine = s.faultLine := rfl
@[simp] theorem clearNotices_freeIndex (s : State) (st : Station) : (clearNotices st s).freeIndex = s.freeIndex := rfl
@[simp] theorem clearNotices_pending (s : State) (st : Station) : (clearNotices st s).pending = s.pending := rfl
@[simp] theorem clearNotices_flight (s : State) (st : Station) (h : FlightId) : (clearNotices st s).flight h = s.flight h := rfl
@[simp] theorem clearNotices_axis (s : State) (st : Station) (m : AxisId) : (clearNotices st s).axis m = s.axis m := rfl
@[simp] theorem clearNotices_link (s : State) (st : Station) (j : LinkId) : (clearNotices st s).link j = s.link j := rfl
@[simp] theorem clearNotices_slot (s : State) (st : Station) (q : SlotId) : (clearNotices st s).slot q = s.slot q := rfl
@[simp] theorem clearNotices_line (s : State) (st : Station) (y : LineId) : (clearNotices st s).line y = s.line y := rfl
@[simp] theorem clearNotices_brake (s : State) (st : Station) (m : AxisId) : (clearNotices st s).brake m = s.brake m := rfl

@[simp] theorem clearFresh_flights (s : State) (st : Station) : (clearFresh st s).flights = s.flights := rfl
@[simp] theorem clearFresh_axes (s : State) (st : Station) : (clearFresh st s).axes = s.axes := rfl
@[simp] theorem clearFresh_links (s : State) (st : Station) : (clearFresh st s).links = s.links := rfl
@[simp] theorem clearFresh_slots (s : State) (st : Station) : (clearFresh st s).slots = s.slots := rfl
@[simp] theorem clearFresh_lines (s : State) (st : Station) : (clearFresh st s).lines = s.lines := rfl
@[simp] theorem clearFresh_enables (s : State) (st : Station) : (clearFresh st s).enables = s.enables := rfl
@[simp] theorem clearFresh_silents (s : State) (st : Station) : (clearFresh st s).silents = s.silents := rfl
@[simp] theorem clearFresh_scanMode (s : State) (st : Station) : (clearFresh st s).scanMode = s.scanMode := rfl
@[simp] theorem clearFresh_scanState (s : State) (st : Station) : (clearFresh st s).scanState = s.scanState := rfl
@[simp] theorem clearFresh_round (s : State) (st : Station) : (clearFresh st s).round = s.round := rfl
@[simp] theorem clearFresh_roundPending (s : State) (st : Station) : (clearFresh st s).roundPending = s.roundPending := rfl
@[simp] theorem clearFresh_turn (s : State) (st : Station) : (clearFresh st s).turn = s.turn := rfl
@[simp] theorem clearFresh_exchange (s : State) (st : Station) : (clearFresh st s).exchange = s.exchange := rfl
@[simp] theorem clearFresh_stepCounter (s : State) (st : Station) : (clearFresh st s).stepCounter = s.stepCounter := rfl
@[simp] theorem clearFresh_timerRunning (s : State) (st : Station) : (clearFresh st s).timerRunning = s.timerRunning := rfl
@[simp] theorem clearFresh_resetAsserted (s : State) (st : Station) : (clearFresh st s).resetAsserted = s.resetAsserted := rfl
@[simp] theorem clearFresh_brakes (s : State) (st : Station) : (clearFresh st s).brakes = s.brakes := rfl
@[simp] theorem clearFresh_sounder (s : State) (st : Station) : (clearFresh st s).sounder = s.sounder := rfl
@[simp] theorem clearFresh_faultLine (s : State) (st : Station) : (clearFresh st s).faultLine = s.faultLine := rfl
@[simp] theorem clearFresh_freeIndex (s : State) (st : Station) : (clearFresh st s).freeIndex = s.freeIndex := rfl
@[simp] theorem clearFresh_pending (s : State) (st : Station) : (clearFresh st s).pending = s.pending := rfl
@[simp] theorem clearFresh_flight (s : State) (st : Station) (h : FlightId) : (clearFresh st s).flight h = s.flight h := rfl
@[simp] theorem clearFresh_axis (s : State) (st : Station) (m : AxisId) : (clearFresh st s).axis m = s.axis m := rfl
@[simp] theorem clearFresh_link (s : State) (st : Station) (j : LinkId) : (clearFresh st s).link j = s.link j := rfl
@[simp] theorem clearFresh_slot (s : State) (st : Station) (q : SlotId) : (clearFresh st s).slot q = s.slot q := rfl
@[simp] theorem clearFresh_line (s : State) (st : Station) (y : LineId) : (clearFresh st s).line y = s.line y := rfl
@[simp] theorem clearFresh_brake (s : State) (st : Station) (m : AxisId) : (clearFresh st s).brake m = s.brake m := rfl

@[simp] theorem clearChange_flights (s : State) (st : Station) : (clearChange st s).flights = s.flights := rfl
@[simp] theorem clearChange_axes (s : State) (st : Station) : (clearChange st s).axes = s.axes := rfl
@[simp] theorem clearChange_links (s : State) (st : Station) : (clearChange st s).links = s.links := rfl
@[simp] theorem clearChange_slots (s : State) (st : Station) : (clearChange st s).slots = s.slots := rfl
@[simp] theorem clearChange_lines (s : State) (st : Station) : (clearChange st s).lines = s.lines := rfl
@[simp] theorem clearChange_enables (s : State) (st : Station) : (clearChange st s).enables = s.enables := rfl
@[simp] theorem clearChange_silents (s : State) (st : Station) : (clearChange st s).silents = s.silents := rfl
@[simp] theorem clearChange_scanMode (s : State) (st : Station) : (clearChange st s).scanMode = s.scanMode := rfl
@[simp] theorem clearChange_scanState (s : State) (st : Station) : (clearChange st s).scanState = s.scanState := rfl
@[simp] theorem clearChange_round (s : State) (st : Station) : (clearChange st s).round = s.round := rfl
@[simp] theorem clearChange_roundPending (s : State) (st : Station) : (clearChange st s).roundPending = s.roundPending := rfl
@[simp] theorem clearChange_turn (s : State) (st : Station) : (clearChange st s).turn = s.turn := rfl
@[simp] theorem clearChange_exchange (s : State) (st : Station) : (clearChange st s).exchange = s.exchange := rfl
@[simp] theorem clearChange_stepCounter (s : State) (st : Station) : (clearChange st s).stepCounter = s.stepCounter := rfl
@[simp] theorem clearChange_timerRunning (s : State) (st : Station) : (clearChange st s).timerRunning = s.timerRunning := rfl
@[simp] theorem clearChange_resetAsserted (s : State) (st : Station) : (clearChange st s).resetAsserted = s.resetAsserted := rfl
@[simp] theorem clearChange_brakes (s : State) (st : Station) : (clearChange st s).brakes = s.brakes := rfl
@[simp] theorem clearChange_sounder (s : State) (st : Station) : (clearChange st s).sounder = s.sounder := rfl
@[simp] theorem clearChange_faultLine (s : State) (st : Station) : (clearChange st s).faultLine = s.faultLine := rfl
@[simp] theorem clearChange_freeIndex (s : State) (st : Station) : (clearChange st s).freeIndex = s.freeIndex := rfl
@[simp] theorem clearChange_pending (s : State) (st : Station) : (clearChange st s).pending = s.pending := rfl
@[simp] theorem clearChange_flight (s : State) (st : Station) (h : FlightId) : (clearChange st s).flight h = s.flight h := rfl
@[simp] theorem clearChange_axis (s : State) (st : Station) (m : AxisId) : (clearChange st s).axis m = s.axis m := rfl
@[simp] theorem clearChange_link (s : State) (st : Station) (j : LinkId) : (clearChange st s).link j = s.link j := rfl
@[simp] theorem clearChange_slot (s : State) (st : Station) (q : SlotId) : (clearChange st s).slot q = s.slot q := rfl
@[simp] theorem clearChange_line (s : State) (st : Station) (y : LineId) : (clearChange st s).line y = s.line y := rfl
@[simp] theorem clearChange_brake (s : State) (st : Station) (m : AxisId) : (clearChange st s).brake m = s.brake m := rfl

@[simp] theorem startReply_flights (s : State) (st : Station) (kind : Byte) (ans : Answer) : (startReply st kind ans s).flights = s.flights := rfl
@[simp] theorem startReply_axes (s : State) (st : Station) (kind : Byte) (ans : Answer) : (startReply st kind ans s).axes = s.axes := rfl
@[simp] theorem startReply_links (s : State) (st : Station) (kind : Byte) (ans : Answer) : (startReply st kind ans s).links = s.links := rfl
@[simp] theorem startReply_slots (s : State) (st : Station) (kind : Byte) (ans : Answer) : (startReply st kind ans s).slots = s.slots := rfl
@[simp] theorem startReply_lines (s : State) (st : Station) (kind : Byte) (ans : Answer) : (startReply st kind ans s).lines = s.lines := rfl
@[simp] theorem startReply_enables (s : State) (st : Station) (kind : Byte) (ans : Answer) : (startReply st kind ans s).enables = s.enables := rfl
@[simp] theorem startReply_silents (s : State) (st : Station) (kind : Byte) (ans : Answer) : (startReply st kind ans s).silents = s.silents := rfl
@[simp] theorem startReply_scanMode (s : State) (st : Station) (kind : Byte) (ans : Answer) : (startReply st kind ans s).scanMode = s.scanMode := rfl
@[simp] theorem startReply_scanState (s : State) (st : Station) (kind : Byte) (ans : Answer) : (startReply st kind ans s).scanState = s.scanState := rfl
@[simp] theorem startReply_round (s : State) (st : Station) (kind : Byte) (ans : Answer) : (startReply st kind ans s).round = s.round := rfl
@[simp] theorem startReply_roundPending (s : State) (st : Station) (kind : Byte) (ans : Answer) : (startReply st kind ans s).roundPending = s.roundPending := rfl
@[simp] theorem startReply_turn (s : State) (st : Station) (kind : Byte) (ans : Answer) : (startReply st kind ans s).turn = s.turn := rfl
@[simp] theorem startReply_exchange (s : State) (st : Station) (kind : Byte) (ans : Answer) : (startReply st kind ans s).exchange = s.exchange := rfl
@[simp] theorem startReply_stepCounter (s : State) (st : Station) (kind : Byte) (ans : Answer) : (startReply st kind ans s).stepCounter = s.stepCounter := rfl
@[simp] theorem startReply_timerRunning (s : State) (st : Station) (kind : Byte) (ans : Answer) : (startReply st kind ans s).timerRunning = s.timerRunning := rfl
@[simp] theorem startReply_resetAsserted (s : State) (st : Station) (kind : Byte) (ans : Answer) : (startReply st kind ans s).resetAsserted = s.resetAsserted := rfl
@[simp] theorem startReply_brakes (s : State) (st : Station) (kind : Byte) (ans : Answer) : (startReply st kind ans s).brakes = s.brakes := rfl
@[simp] theorem startReply_sounder (s : State) (st : Station) (kind : Byte) (ans : Answer) : (startReply st kind ans s).sounder = s.sounder := rfl
@[simp] theorem startReply_faultLine (s : State) (st : Station) (kind : Byte) (ans : Answer) : (startReply st kind ans s).faultLine = s.faultLine := rfl
@[simp] theorem startReply_freeIndex (s : State) (st : Station) (kind : Byte) (ans : Answer) : (startReply st kind ans s).freeIndex = s.freeIndex := rfl
@[simp] theorem startReply_pending (s : State) (st : Station) (kind : Byte) (ans : Answer) : (startReply st kind ans s).pending = s.pending := rfl
@[simp] theorem startReply_flight (s : State) (st : Station) (kind : Byte) (ans : Answer) (h : FlightId) : (startReply st kind ans s).flight h = s.flight h := rfl
@[simp] theorem startReply_axis (s : State) (st : Station) (kind : Byte) (ans : Answer) (m : AxisId) : (startReply st kind ans s).axis m = s.axis m := rfl
@[simp] theorem startReply_link (s : State) (st : Station) (kind : Byte) (ans : Answer) (j : LinkId) : (startReply st kind ans s).link j = s.link j := rfl
@[simp] theorem startReply_slot (s : State) (st : Station) (kind : Byte) (ans : Answer) (q : SlotId) : (startReply st kind ans s).slot q = s.slot q := rfl
@[simp] theorem startReply_line (s : State) (st : Station) (kind : Byte) (ans : Answer) (y : LineId) : (startReply st kind ans s).line y = s.line y := rfl
@[simp] theorem startReply_brake (s : State) (st : Station) (kind : Byte) (ans : Answer) (m : AxisId) : (startReply st kind ans s).brake m = s.brake m := rfl

@[simp] theorem reply_flights (s : State) (st : Station) (kind : Byte) (code : ResultCode) : (reply st kind code s).flights = s.flights := rfl
@[simp] theorem reply_axes (s : State) (st : Station) (kind : Byte) (code : ResultCode) : (reply st kind code s).axes = s.axes := rfl
@[simp] theorem reply_links (s : State) (st : Station) (kind : Byte) (code : ResultCode) : (reply st kind code s).links = s.links := rfl
@[simp] theorem reply_slots (s : State) (st : Station) (kind : Byte) (code : ResultCode) : (reply st kind code s).slots = s.slots := rfl
@[simp] theorem reply_lines (s : State) (st : Station) (kind : Byte) (code : ResultCode) : (reply st kind code s).lines = s.lines := rfl
@[simp] theorem reply_enables (s : State) (st : Station) (kind : Byte) (code : ResultCode) : (reply st kind code s).enables = s.enables := rfl
@[simp] theorem reply_silents (s : State) (st : Station) (kind : Byte) (code : ResultCode) : (reply st kind code s).silents = s.silents := rfl
@[simp] theorem reply_scanMode (s : State) (st : Station) (kind : Byte) (code : ResultCode) : (reply st kind code s).scanMode = s.scanMode := rfl
@[simp] theorem reply_scanState (s : State) (st : Station) (kind : Byte) (code : ResultCode) : (reply st kind code s).scanState = s.scanState := rfl
@[simp] theorem reply_round (s : State) (st : Station) (kind : Byte) (code : ResultCode) : (reply st kind code s).round = s.round := rfl
@[simp] theorem reply_roundPending (s : State) (st : Station) (kind : Byte) (code : ResultCode) : (reply st kind code s).roundPending = s.roundPending := rfl
@[simp] theorem reply_turn (s : State) (st : Station) (kind : Byte) (code : ResultCode) : (reply st kind code s).turn = s.turn := rfl
@[simp] theorem reply_exchange (s : State) (st : Station) (kind : Byte) (code : ResultCode) : (reply st kind code s).exchange = s.exchange := rfl
@[simp] theorem reply_stepCounter (s : State) (st : Station) (kind : Byte) (code : ResultCode) : (reply st kind code s).stepCounter = s.stepCounter := rfl
@[simp] theorem reply_timerRunning (s : State) (st : Station) (kind : Byte) (code : ResultCode) : (reply st kind code s).timerRunning = s.timerRunning := rfl
@[simp] theorem reply_resetAsserted (s : State) (st : Station) (kind : Byte) (code : ResultCode) : (reply st kind code s).resetAsserted = s.resetAsserted := rfl
@[simp] theorem reply_brakes (s : State) (st : Station) (kind : Byte) (code : ResultCode) : (reply st kind code s).brakes = s.brakes := rfl
@[simp] theorem reply_sounder (s : State) (st : Station) (kind : Byte) (code : ResultCode) : (reply st kind code s).sounder = s.sounder := rfl
@[simp] theorem reply_faultLine (s : State) (st : Station) (kind : Byte) (code : ResultCode) : (reply st kind code s).faultLine = s.faultLine := rfl
@[simp] theorem reply_freeIndex (s : State) (st : Station) (kind : Byte) (code : ResultCode) : (reply st kind code s).freeIndex = s.freeIndex := rfl
@[simp] theorem reply_pending (s : State) (st : Station) (kind : Byte) (code : ResultCode) : (reply st kind code s).pending = s.pending := rfl
@[simp] theorem reply_flight (s : State) (st : Station) (kind : Byte) (code : ResultCode) (h : FlightId) : (reply st kind code s).flight h = s.flight h := rfl
@[simp] theorem reply_axis (s : State) (st : Station) (kind : Byte) (code : ResultCode) (m : AxisId) : (reply st kind code s).axis m = s.axis m := rfl
@[simp] theorem reply_link (s : State) (st : Station) (kind : Byte) (code : ResultCode) (j : LinkId) : (reply st kind code s).link j = s.link j := rfl
@[simp] theorem reply_slot (s : State) (st : Station) (kind : Byte) (code : ResultCode) (q : SlotId) : (reply st kind code s).slot q = s.slot q := rfl
@[simp] theorem reply_line (s : State) (st : Station) (kind : Byte) (code : ResultCode) (y : LineId) : (reply st kind code s).line y = s.line y := rfl
@[simp] theorem reply_brake (s : State) (st : Station) (kind : Byte) (code : ResultCode) (m : AxisId) : (reply st kind code s).brake m = s.brake m := rfl

@[simp] theorem driveOutputs_flights (s : State) : (driveOutputs s).flights = s.flights := rfl
@[simp] theorem driveOutputs_axes (s : State) : (driveOutputs s).axes = s.axes := rfl
@[simp] theorem driveOutputs_links (s : State) : (driveOutputs s).links = s.links := rfl
@[simp] theorem driveOutputs_slots (s : State) : (driveOutputs s).slots = s.slots := rfl
@[simp] theorem driveOutputs_lines (s : State) : (driveOutputs s).lines = s.lines := rfl
@[simp] theorem driveOutputs_ports (s : State) : (driveOutputs s).ports = s.ports := rfl
@[simp] theorem driveOutputs_enables (s : State) : (driveOutputs s).enables = s.enables := rfl
@[simp] theorem driveOutputs_silents (s : State) : (driveOutputs s).silents = s.silents := rfl
@[simp] theorem driveOutputs_scanMode (s : State) : (driveOutputs s).scanMode = s.scanMode := rfl
@[simp] theorem driveOutputs_scanState (s : State) : (driveOutputs s).scanState = s.scanState := rfl
@[simp] theorem driveOutputs_round (s : State) : (driveOutputs s).round = s.round := rfl
@[simp] theorem driveOutputs_roundPending (s : State) : (driveOutputs s).roundPending = s.roundPending := rfl
@[simp] theorem driveOutputs_turn (s : State) : (driveOutputs s).turn = s.turn := rfl
@[simp] theorem driveOutputs_exchange (s : State) : (driveOutputs s).exchange = s.exchange := rfl
@[simp] theorem driveOutputs_stepCounter (s : State) : (driveOutputs s).stepCounter = s.stepCounter := rfl
@[simp] theorem driveOutputs_timerRunning (s : State) : (driveOutputs s).timerRunning = s.timerRunning := rfl
@[simp] theorem driveOutputs_resetAsserted (s : State) : (driveOutputs s).resetAsserted = s.resetAsserted := rfl
@[simp] theorem driveOutputs_freeIndex (s : State) : (driveOutputs s).freeIndex = s.freeIndex := rfl
@[simp] theorem driveOutputs_pending (s : State) : (driveOutputs s).pending = s.pending := rfl
@[simp] theorem driveOutputs_flight (s : State) (h : FlightId) : (driveOutputs s).flight h = s.flight h := rfl
@[simp] theorem driveOutputs_axis (s : State) (m : AxisId) : (driveOutputs s).axis m = s.axis m := rfl
@[simp] theorem driveOutputs_link (s : State) (j : LinkId) : (driveOutputs s).link j = s.link j := rfl
@[simp] theorem driveOutputs_slot (s : State) (q : SlotId) : (driveOutputs s).slot q = s.slot q := rfl
@[simp] theorem driveOutputs_line (s : State) (y : LineId) : (driveOutputs s).line y = s.line y := rfl
@[simp] theorem driveOutputs_port (s : State) (u : Station) : (driveOutputs s).port u = s.port u := rfl

@[simp] theorem putFlightState_axes (s : State) (f : FlightId) (x : FlightState) : (putFlightState f x s).axes = s.axes := rfl
@[simp] theorem putFlightState_links (s : State) (f : FlightId) (x : FlightState) : (putFlightState f x s).links = s.links := rfl
@[simp] theorem putFlightState_slots (s : State) (f : FlightId) (x : FlightState) : (putFlightState f x s).slots = s.slots := rfl
@[simp] theorem putFlightState_lines (s : State) (f : FlightId) (x : FlightState) : (putFlightState f x s).lines = s.lines := rfl
@[simp] theorem putFlightState_enables (s : State) (f : FlightId) (x : FlightState) : (putFlightState f x s).enables = s.enables := rfl
@[simp] theorem putFlightState_silents (s : State) (f : FlightId) (x : FlightState) : (putFlightState f x s).silents = s.silents := rfl
@[simp] theorem putFlightState_scanMode (s : State) (f : FlightId) (x : FlightState) : (putFlightState f x s).scanMode = s.scanMode := rfl
@[simp] theorem putFlightState_scanState (s : State) (f : FlightId) (x : FlightState) : (putFlightState f x s).scanState = s.scanState := rfl
@[simp] theorem putFlightState_round (s : State) (f : FlightId) (x : FlightState) : (putFlightState f x s).round = s.round := rfl
@[simp] theorem putFlightState_roundPending (s : State) (f : FlightId) (x : FlightState) : (putFlightState f x s).roundPending = s.roundPending := rfl
@[simp] theorem putFlightState_turn (s : State) (f : FlightId) (x : FlightState) : (putFlightState f x s).turn = s.turn := rfl
@[simp] theorem putFlightState_exchange (s : State) (f : FlightId) (x : FlightState) : (putFlightState f x s).exchange = s.exchange := rfl
@[simp] theorem putFlightState_stepCounter (s : State) (f : FlightId) (x : FlightState) : (putFlightState f x s).stepCounter = s.stepCounter := rfl
@[simp] theorem putFlightState_timerRunning (s : State) (f : FlightId) (x : FlightState) : (putFlightState f x s).timerRunning = s.timerRunning := rfl
@[simp] theorem putFlightState_resetAsserted (s : State) (f : FlightId) (x : FlightState) : (putFlightState f x s).resetAsserted = s.resetAsserted := rfl
@[simp] theorem putFlightState_freeIndex (s : State) (f : FlightId) (x : FlightState) : (putFlightState f x s).freeIndex = s.freeIndex := rfl
@[simp] theorem putFlightState_pending (s : State) (f : FlightId) (x : FlightState) : (putFlightState f x s).pending = s.pending := rfl
@[simp] theorem putFlightState_axis (s : State) (f : FlightId) (x : FlightState) (m : AxisId) : (putFlightState f x s).axis m = s.axis m := rfl
@[simp] theorem putFlightState_link (s : State) (f : FlightId) (x : FlightState) (j : LinkId) : (putFlightState f x s).link j = s.link j := rfl
@[simp] theorem putFlightState_slot (s : State) (f : FlightId) (x : FlightState) (q : SlotId) : (putFlightState f x s).slot q = s.slot q := rfl
@[simp] theorem putFlightState_line (s : State) (f : FlightId) (x : FlightState) (y : LineId) : (putFlightState f x s).line y = s.line y := rfl

@[simp] theorem putAxis_flights (s : State) (n : AxisId) (g : Axis → Axis) : (putAxis n g s).flights = s.flights := rfl
@[simp] theorem putAxis_links (s : State) (n : AxisId) (g : Axis → Axis) : (putAxis n g s).links = s.links := rfl
@[simp] theorem putAxis_slots (s : State) (n : AxisId) (g : Axis → Axis) : (putAxis n g s).slots = s.slots := rfl
@[simp] theorem putAxis_lines (s : State) (n : AxisId) (g : Axis → Axis) : (putAxis n g s).lines = s.lines := rfl
@[simp] theorem putAxis_ports (s : State) (n : AxisId) (g : Axis → Axis) : (putAxis n g s).ports = s.ports := rfl
@[simp] theorem putAxis_enables (s : State) (n : AxisId) (g : Axis → Axis) : (putAxis n g s).enables = s.enables := rfl
@[simp] theorem putAxis_silents (s : State) (n : AxisId) (g : Axis → Axis) : (putAxis n g s).silents = s.silents := rfl
@[simp] theorem putAxis_scanMode (s : State) (n : AxisId) (g : Axis → Axis) : (putAxis n g s).scanMode = s.scanMode := rfl
@[simp] theorem putAxis_scanState (s : State) (n : AxisId) (g : Axis → Axis) : (putAxis n g s).scanState = s.scanState := rfl
@[simp] theorem putAxis_round (s : State) (n : AxisId) (g : Axis → Axis) : (putAxis n g s).round = s.round := rfl
@[simp] theorem putAxis_roundPending (s : State) (n : AxisId) (g : Axis → Axis) : (putAxis n g s).roundPending = s.roundPending := rfl
@[simp] theorem putAxis_turn (s : State) (n : AxisId) (g : Axis → Axis) : (putAxis n g s).turn = s.turn := rfl
@[simp] theorem putAxis_exchange (s : State) (n : AxisId) (g : Axis → Axis) : (putAxis n g s).exchange = s.exchange := rfl
@[simp] theorem putAxis_stepCounter (s : State) (n : AxisId) (g : Axis → Axis) : (putAxis n g s).stepCounter = s.stepCounter := rfl
@[simp] theorem putAxis_timerRunning (s : State) (n : AxisId) (g : Axis → Axis) : (putAxis n g s).timerRunning = s.timerRunning := rfl
@[simp] theorem putAxis_resetAsserted (s : State) (n : AxisId) (g : Axis → Axis) : (putAxis n g s).resetAsserted = s.resetAsserted := rfl
@[simp] theorem putAxis_freeIndex (s : State) (n : AxisId) (g : Axis → Axis) : (putAxis n g s).freeIndex = s.freeIndex := rfl
@[simp] theorem putAxis_pending (s : State) (n : AxisId) (g : Axis → Axis) : (putAxis n g s).pending = s.pending := rfl
@[simp] theorem putAxis_flight (s : State) (n : AxisId) (g : Axis → Axis) (h : FlightId) : (putAxis n g s).flight h = s.flight h := rfl
@[simp] theorem putAxis_link (s : State) (n : AxisId) (g : Axis → Axis) (j : LinkId) : (putAxis n g s).link j = s.link j := rfl
@[simp] theorem putAxis_slot (s : State) (n : AxisId) (g : Axis → Axis) (q : SlotId) : (putAxis n g s).slot q = s.slot q := rfl
@[simp] theorem putAxis_line (s : State) (n : AxisId) (g : Axis → Axis) (y : LineId) : (putAxis n g s).line y = s.line y := rfl
@[simp] theorem putAxis_port (s : State) (n : AxisId) (g : Axis → Axis) (u : Station) : (putAxis n g s).port u = s.port u := rfl

@[simp] theorem brakeMembers_flights (s : State) (f : FlightId) : (brakeMembers f s).flights = s.flights := rfl
@[simp] theorem brakeMembers_links (s : State) (f : FlightId) : (brakeMembers f s).links = s.links := rfl
@[simp] theorem brakeMembers_slots (s : State) (f : FlightId) : (brakeMembers f s).slots = s.slots := rfl
@[simp] theorem brakeMembers_lines (s : State) (f : FlightId) : (brakeMembers f s).lines = s.lines := rfl
@[simp] theorem brakeMembers_ports (s : State) (f : FlightId) : (brakeMembers f s).ports = s.ports := rfl
@[simp] theorem brakeMembers_enables (s : State) (f : FlightId) : (brakeMembers f s).enables = s.enables := rfl
@[simp] theorem brakeMembers_silents (s : State) (f : FlightId) : (brakeMembers f s).silents = s.silents := rfl
@[simp] theorem brakeMembers_scanMode (s : State) (f : FlightId) : (brakeMembers f s).scanMode = s.scanMode := rfl
@[simp] theorem brakeMembers_scanState (s : State) (f : FlightId) : (brakeMembers f s).scanState = s.scanState := rfl
@[simp] theorem brakeMembers_round (s : State) (f : FlightId) : (brakeMembers f s).round = s.round := rfl
@[simp] theorem brakeMembers_roundPending (s : State) (f : FlightId) : (brakeMembers f s).roundPending = s.roundPending := rfl
@[simp] theorem brakeMembers_turn (s : State) (f : FlightId) : (brakeMembers f s).turn = s.turn := rfl
@[simp] theorem brakeMembers_exchange (s : State) (f : FlightId) : (brakeMembers f s).exchange = s.exchange := rfl
@[simp] theorem brakeMembers_stepCounter (s : State) (f : FlightId) : (brakeMembers f s).stepCounter = s.stepCounter := rfl
@[simp] theorem brakeMembers_timerRunning (s : State) (f : FlightId) : (brakeMembers f s).timerRunning = s.timerRunning := rfl
@[simp] theorem brakeMembers_resetAsserted (s : State) (f : FlightId) : (brakeMembers f s).resetAsserted = s.resetAsserted := rfl
@[simp] theorem brakeMembers_brakes (s : State) (f : FlightId) : (brakeMembers f s).brakes = s.brakes := rfl
@[simp] theorem brakeMembers_sounder (s : State) (f : FlightId) : (brakeMembers f s).sounder = s.sounder := rfl
@[simp] theorem brakeMembers_faultLine (s : State) (f : FlightId) : (brakeMembers f s).faultLine = s.faultLine := rfl
@[simp] theorem brakeMembers_freeIndex (s : State) (f : FlightId) : (brakeMembers f s).freeIndex = s.freeIndex := rfl
@[simp] theorem brakeMembers_pending (s : State) (f : FlightId) : (brakeMembers f s).pending = s.pending := rfl
@[simp] theorem brakeMembers_flight (s : State) (f : FlightId) (h : FlightId) : (brakeMembers f s).flight h = s.flight h := rfl
@[simp] theorem brakeMembers_link (s : State) (f : FlightId) (j : LinkId) : (brakeMembers f s).link j = s.link j := rfl
@[simp] theorem brakeMembers_slot (s : State) (f : FlightId) (q : SlotId) : (brakeMembers f s).slot q = s.slot q := rfl
@[simp] theorem brakeMembers_line (s : State) (f : FlightId) (y : LineId) : (brakeMembers f s).line y = s.line y := rfl
@[simp] theorem brakeMembers_port (s : State) (f : FlightId) (u : Station) : (brakeMembers f s).port u = s.port u := rfl
@[simp] theorem brakeMembers_brake (s : State) (f : FlightId) (m : AxisId) : (brakeMembers f s).brake m = s.brake m := rfl

end Sys2Proof.Machine
end

