-- ==== Sys2Proof/Laws/Ops.lean ====
section
/-! SUPPORT. Once for each shared operation of Machine/Ops.lean: everything it can do. -/

namespace Sys2Proof.Machine

/-! ### Frames -/

theorem OnlyMotionChanged.refl (s : State) : OnlyMotionChanged s s := rfl

theorem OnlyMotionChanged.trans {s t u : State} (h : OnlyMotionChanged s t) (k : OnlyMotionChanged t u) :
    OnlyMotionChanged s u := by
  unfold OnlyMotionChanged at *
  rw [k, h]

theorem OnlyMotionChanged.links {s t : State} (h : OnlyMotionChanged s t) : t.links = s.links := by rw [h]
theorem OnlyMotionChanged.slots {s t : State} (h : OnlyMotionChanged s t) : t.slots = s.slots := by rw [h]
theorem OnlyMotionChanged.lines {s t : State} (h : OnlyMotionChanged s t) : t.lines = s.lines := by rw [h]
theorem OnlyMotionChanged.enables {s t : State} (h : OnlyMotionChanged s t) : t.enables = s.enables := by rw [h]
theorem OnlyMotionChanged.silents {s t : State} (h : OnlyMotionChanged s t) : t.silents = s.silents := by rw [h]
theorem OnlyMotionChanged.scanMode {s t : State} (h : OnlyMotionChanged s t) : t.scanMode = s.scanMode := by rw [h]
theorem OnlyMotionChanged.scanState {s t : State} (h : OnlyMotionChanged s t) : t.scanState = s.scanState := by rw [h]
theorem OnlyMotionChanged.round {s t : State} (h : OnlyMotionChanged s t) : t.round = s.round := by rw [h]
theorem OnlyMotionChanged.roundPending {s t : State} (h : OnlyMotionChanged s t) : t.roundPending = s.roundPending := by
  rw [h]
theorem OnlyMotionChanged.turn {s t : State} (h : OnlyMotionChanged s t) : t.turn = s.turn := by rw [h]
theorem OnlyMotionChanged.exchange {s t : State} (h : OnlyMotionChanged s t) : t.exchange = s.exchange := by rw [h]
theorem OnlyMotionChanged.stepCounter {s t : State} (h : OnlyMotionChanged s t) : t.stepCounter = s.stepCounter := by
  rw [h]
theorem OnlyMotionChanged.timerRunning {s t : State} (h : OnlyMotionChanged s t) : t.timerRunning = s.timerRunning := by
  rw [h]
theorem OnlyMotionChanged.resetAsserted {s t : State} (h : OnlyMotionChanged s t) :
    t.resetAsserted = s.resetAsserted := by rw [h]
theorem OnlyMotionChanged.freeIndex {s t : State} (h : OnlyMotionChanged s t) : t.freeIndex = s.freeIndex := by rw [h]
theorem OnlyMotionChanged.pending {s t : State} (h : OnlyMotionChanged s t) : t.pending = s.pending := by rw [h]

/-- A reply's start is one more change of the motion kind. -/
theorem OnlyMotionChanged.reply {s t : State} (h : OnlyMotionChanged s t) (st : Station) (kind : Byte)
    (ans : Answer) : OnlyMotionChanged s (startReply st kind ans t) := h.trans rfl

/-- A reply's start leaves the output lines as they are. -/
theorem OutputsDriven.reply {s t : State} (h : OutputsDriven s t) (st : Station) (kind : Byte) (ans : Answer) :
    OutputsDriven s (startReply st kind ans t) := h

/-- A reply's start touches the ports alone, whatever the rest of the state. -/
theorem reply_ports_congr {s t : State} (h : t.ports = s.ports) (st : Station) (kind : Byte) (code : ResultCode) :
    (startReply st kind { code := code, data := [] } t).ports = (reply st kind code s).ports := by
  simp only [Sys2Proof.Machine.reply, startReply, State.updPort, h]

theorem OtherFlightsKept.refl (f : FlightId) (s : State) : OtherFlightsKept f s s := fun _ _ => rfl

theorem OtherFlightsKept.trans {f : FlightId} {s t u : State} (h : OtherFlightsKept f s t) (k : OtherFlightsKept f t u) :
    OtherFlightsKept f s u := fun g ne => (k g ne).trans (h g ne)

theorem updFlight_others (f : FlightId) (g : Flight → Flight) (s : State) : OtherFlightsKept f s (s.updFlight f g) :=
  fun _ ne => State.updFlight_flight_other s g ne

theorem updFlight_motion (f : FlightId) (g : Flight → Flight) (s : State) : OnlyMotionChanged s (s.updFlight f g) := rfl
theorem mapAxes_motion (g : AxisId → Axis → Axis) (s : State) : OnlyMotionChanged s (s.mapAxes g) := rfl
theorem updAxis_motion (n : AxisId) (g : Axis → Axis) (s : State) : OnlyMotionChanged s (s.updAxis n g) := rfl
theorem mapPorts_motion (g : Port → Port) (s : State) : OnlyMotionChanged s (s.mapPorts g) := rfl
theorem updPort_motion (st : Station) (g : Port → Port) (s : State) : OnlyMotionChanged s (s.updPort st g) := rfl
theorem driveOutputs_motion (s : State) : OnlyMotionChanged s (driveOutputs s) := rfl
theorem putFlightState_motion (f : FlightId) (x : FlightState) (s : State) : OnlyMotionChanged s (putFlightState f x s) :=
  rfl
theorem brakeMembers_motion (f : FlightId) (s : State) : OnlyMotionChanged s (brakeMembers f s) := rfl
theorem putAxis_motion (n : AxisId) (g : Axis → Axis) (s : State) : OnlyMotionChanged s (putAxis n g s) := rfl

/-! ### Output lines -/

@[simp] theorem driveOutputs_brake (s : State) (n : AxisId) : (driveOutputs s).brake n = (s.axis n).released := by
  simp [driveOutputs, State.brake]

@[simp] theorem driveOutputs_sounder (s : State) :
    (driveOutputs s).sounder = nextSounder s.anyTripped s.anySteady s.sounder := rfl

@[simp] theorem driveOutputs_faultLine (s : State) : (driveOutputs s).faultLine = (s.anyTripped || s.anyFaulted) := rfl

theorem mem_allFlights (f : FlightId) : f ∈ allFlights := by revert f; decide
theorem mem_allAxes (n : AxisId) : n ∈ allAxes := by revert n; decide
theorem mem_allStations (st : Station) : st ∈ allStations := by cases st <;> decide
theorem mem_allSlots (k : SlotId) : k ∈ allSlots := by revert k; decide
theorem mem_allLines (n : LineId) : n ∈ allLines := by revert n; decide
theorem mem_allLinks (i : LinkId) : i ∈ allLinks := by revert i; decide
theorem allFlights_nodup : allFlights.Nodup := by decide
theorem allAxes_nodup : allAxes.Nodup := by decide
theorem allLines_nodup : allLines.Nodup := by decide
theorem allLinks_nodup : allLinks.Nodup := by decide

theorem anyTripped_iff (s : State) : s.anyTripped = true ↔ ∃ f, (s.flight f).state = .tripped := by
  simp [State.anyTripped, mem_allFlights]

theorem anySteady_iff (s : State) : s.anySteady = true ↔ ∃ f, (s.flight f).state.soundsSteady = true := by
  simp [State.anySteady, mem_allFlights]

theorem anyFaulted_iff (s : State) : s.anyFaulted = true ↔ ∃ n, (s.axis n).state = .faulted := by
  simp [State.anyFaulted, mem_allAxes]

theorem soundsSteady_iff (x : FlightState) :
    x.soundsSteady = true ↔ x = .arming ∨ x = .moving ∨ x = .stopping ∨ x = .dwell := by
  cases x <;> simp [FlightState.soundsSteady]

theorem released_iff (a : Axis) : a.released = true ↔ a.state = .releasing ∨ a.state = .following := by
  simp [Axis.released]

/-- The outputs depend on the flight states, the axis states and the sounder before, and on nothing else. -/
theorem driveOutputs_congr {s t : State} (hf : ∀ f, (t.flight f).state = (s.flight f).state)
    (ha : ∀ n, (t.axis n).state = (s.axis n).state) (hs : t.sounder = s.sounder) :
    (driveOutputs t).brakes = (driveOutputs s).brakes ∧ (driveOutputs t).sounder = (driveOutputs s).sounder ∧
      (driveOutputs t).faultLine = (driveOutputs s).faultLine := by
  simp [driveOutputs, State.anyTripped, State.anySteady, State.anyFaulted, Axis.released, hf, ha, hs]

theorem driveOutputs_driven (s : State) : OutputsDriven s (driveOutputs s) :=
  ⟨fun n => driveOutputs_brake s n, rfl, rfl⟩

/-! ### A change of flight state -/

theorem putFlightState_flight (f h : FlightId) (x : FlightState) (s : State) :
    (putFlightState f x s).flight h = if h = f then { s.flight h with state := x } else s.flight h := by
  simp [putFlightState, State.updFlight_flight]

@[simp] theorem putFlightState_flight_same (f : FlightId) (x : FlightState) (s : State) :
    (putFlightState f x s).flight f = { s.flight f with state := x } := by simp [putFlightState_flight]

theorem putFlightState_others (f : FlightId) (x : FlightState) (s : State) :
    OtherFlightsKept f s (putFlightState f x s) := fun h ne => by simp [putFlightState_flight, ne]

/-- STATE raised touches the ports alone, whatever the rest of the state. -/
theorem raiseState_ports_congr (f : FlightId) {s t : State} (h : t.ports = s.ports) :
    (raiseState f t).ports = (raiseState f s).ports := by
  simp only [raiseState, raiseFlight, State.mapPorts, h]

@[simp] theorem putFlightState_ports (f : FlightId) (x : FlightState) (s : State) :
    (putFlightState f x s).ports = (raiseState f s).ports := rfl

theorem putFlightState_driven (f : FlightId) (x : FlightState) (s : State) :
    OutputsDriven s (putFlightState f x s) := driveOutputs_driven _

/-! ### Brakes -/

theorem brakeMembers_axis (f : FlightId) (s : State) (n : AxisId) :
    (brakeMembers f s).axis n = if n ∈ (s.flight f).members then (s.axis n).brakedDown else s.axis n := by
  by_cases h : n ∈ (s.flight f).members <;> simp [brakeMembers, Axis.brakedDown, h]

theorem brakedDown_released (a : Axis) : a.brakedDown.released = false := by
  unfold Axis.brakedDown
  split
  · rfl
  · simp_all

theorem brakedDown_idem (a : Axis) : a.brakedDown.brakedDown = a.brakedDown := by
  rw [Axis.brakedDown.eq_1 a.brakedDown, if_neg (by simp [brakedDown_released])]

/-- A change of flight state drives the outputs from the sounder as it stood before. -/
theorem putFlightState_drivenFrom {f : FlightId} {x : FlightState} {s u : State} (h : u.sounder = s.sounder) :
    OutputsDriven s (putFlightState f x u) :=
  ⟨(putFlightState_driven f x u).1, h ▸ (putFlightState_driven f x u).2.1, (putFlightState_driven f x u).2.2⟩

/-! ### Trips -/

theorem tripFlight_flight_same (f : FlightId) (cause : TripCause) (s : State) :
    (tripFlight f cause s).flight f = (s.flight f).afterTrip cause := by
  unfold tripFlight Flight.afterTrip
  split <;> rename_i h <;> simp [h]

theorem tripFlight_others (f : FlightId) (cause : TripCause) (s : State) :
    OtherFlightsKept f s (tripFlight f cause s) := by
  unfold tripFlight
  split
  · exact .refl _ _
  · exact updFlight_others _ _ _
  all_goals
    refine .trans ?_ (putFlightState_others _ _ _)
    intro g ne
    rw [State.updFlight_flight_other _ _ ne]; rfl

theorem tripFlight_axis (f : FlightId) (cause : TripCause) (s : State) (n : AxisId) :
    (tripFlight f cause s).axis n =
      if (s.flight f).state.trips = true ∧ n ∈ (s.flight f).members then (s.axis n).brakedDown else s.axis n := by
  unfold tripFlight
  split <;> rename_i h <;> simp [h, FlightState.trips, brakeMembers_axis]

theorem tripFlight_ports (f : FlightId) (cause : TripCause) (s : State) :
    (tripFlight f cause s).ports = if (s.flight f).state.trips = true then (raiseState f s).ports else s.ports := by
  unfold tripFlight
  split <;> rename_i h <;> simp [h, FlightState.trips]
  all_goals exact raiseState_ports_congr f rfl

theorem tripFlight_motion (f : FlightId) (cause : TripCause) (s : State) :
    OnlyMotionChanged s (tripFlight f cause s) := by
  unfold tripFlight
  split
  · exact .refl _
  · exact updFlight_motion _ _ _
  all_goals exact ((brakeMembers_motion _ _).trans (updFlight_motion _ _ _)).trans (putFlightState_motion _ _ _)

/-! ### Holds and aborts -/

theorem holdFlight_flight_same (f : FlightId) (cause : HoldCause) (s : State) :
    (holdFlight f cause s).flight f = (s.flight f).afterHold cause := by
  unfold holdFlight Flight.afterHold
  split <;> rename_i h <;> simp [h]

theorem holdFlight_others (f : FlightId) (cause : HoldCause) (s : State) :
    OtherFlightsKept f s (holdFlight f cause s) := by
  unfold holdFlight
  split
  any_goals exact .refl _ _
  any_goals exact updFlight_others _ _ _
  all_goals exact .trans (updFlight_others _ _ _) (putFlightState_others _ _ _)

@[simp] theorem holdFlight_axes (f : FlightId) (cause : HoldCause) (s : State) : (holdFlight f cause s).axes = s.axes := by
  unfold holdFlight; split <;> rfl

@[simp] theorem holdFlight_axis (f : FlightId) (cause : HoldCause) (s : State) (n : AxisId) :
    (holdFlight f cause s).axis n = s.axis n := by simp [State.axis]

theorem holdFlight_motion (f : FlightId) (cause : HoldCause) (s : State) :
    OnlyMotionChanged s (holdFlight f cause s) := by
  unfold holdFlight
  split
  all_goals
    first
    | exact OnlyMotionChanged.refl s
    | exact updFlight_motion _ _ _
    | exact (updFlight_motion _ _ _).trans (putFlightState_motion _ _ _)

theorem holdFlight_ports (f : FlightId) (cause : HoldCause) (s : State) :
    (holdFlight f cause s).ports =
      if (s.flight f).state = .moving ∨ (s.flight f).state = .dwell then (raiseState f s).ports else s.ports := by
  unfold holdFlight
  split <;> rename_i h <;> simp [h]
  all_goals exact raiseState_ports_congr f rfl

theorem abortArming_flight_same (f : FlightId) (cause : HoldCause) (s : State) :
    (abortArming f cause s).flight f = (s.flight f).afterAbort cause := by
  unfold abortArming Flight.afterAbort
  split <;> rename_i h <;> simp [h]

theorem abortArming_others (f : FlightId) (cause : HoldCause) (s : State) :
    OtherFlightsKept f s (abortArming f cause s) := by
  unfold abortArming
  split
  any_goals exact .refl _ _
  refine .trans ?_ (putFlightState_others _ _ _)
  intro g ne
  rw [State.updFlight_flight_other _ _ ne]; rfl

theorem abortArming_axis (f : FlightId) (cause : HoldCause) (s : State) (n : AxisId) :
    (abortArming f cause s).axis n =
      if (s.flight f).state = .arming ∧ n ∈ (s.flight f).members then (s.axis n).brakedDown else s.axis n := by
  unfold abortArming
  split <;> rename_i h <;> simp [h, brakeMembers_axis]

theorem abortArming_motion (f : FlightId) (cause : HoldCause) (s : State) :
    OnlyMotionChanged s (abortArming f cause s) := by
  unfold abortArming
  split
  any_goals exact OnlyMotionChanged.refl s
  exact ((brakeMembers_motion _ _).trans (updFlight_motion _ _ _)).trans (putFlightState_motion _ _ _)

theorem restrainFlight_flight_same (f : FlightId) (cause : HoldCause) (s : State) :
    (restrainFlight f cause s).flight f = (s.flight f).afterRestraint cause := by
  unfold restrainFlight Flight.afterRestraint
  split <;> rename_i h <;> simp [h, abortArming_flight_same, holdFlight_flight_same]

theorem restrainFlight_others (f : FlightId) (cause : HoldCause) (s : State) :
    OtherFlightsKept f s (restrainFlight f cause s) := by
  unfold restrainFlight
  split
  any_goals exact holdFlight_others _ _ _
  exact abortArming_others _ _ _

theorem restrainFlight_motion (f : FlightId) (cause : HoldCause) (s : State) :
    OnlyMotionChanged s (restrainFlight f cause s) := by
  unfold restrainFlight
  split
  any_goals exact holdFlight_motion _ _ _
  exact abortArming_motion _ _ _

/-! ### Axis faults -/

/-- An axis fault has no effect on this axis state (01, R3). -/
theorem faultAxis_idle {n : AxisId} {cause : FaultCause} {s : State}
    (h : (s.axis n).state = .unconfigured ∨ (s.axis n).state = .faulted) : faultAxis n cause s = s := by
  unfold faultAxis; rcases h with h | h <;> simp [h]

/-- An axis fault elsewhere: the axis FAULTED with its cause, and its flight tripped (01, R3; 04, R76). -/
theorem faultAxis_taken {n : AxisId} {cause : FaultCause} {s : State}
    (h : (s.axis n).state = .braked ∨ (s.axis n).state = .releasing ∨ (s.axis n).state = .following) :
    faultAxis n cause s =
      match (s.axis n).flight with
      | none => putAxis n (fun a => { a with state := .faulted, faultCause := some cause }) s
      | some f => tripFlight f (.axisFault cause n)
          (putAxis n (fun a => { a with state := .faulted, faultCause := some cause }) s) := by
  unfold faultAxis; rcases h with h | h | h <;> cases (s.axis n).flight <;> simp [h]

theorem faultAxis_motion (n : AxisId) (cause : FaultCause) (s : State) : OnlyMotionChanged s (faultAxis n cause s) := by
  unfold faultAxis
  split
  any_goals exact .refl _
  all_goals
    dsimp only
    split
    · exact putAxis_motion _ _ _
    · exact (putAxis_motion _ _ _).trans (tripFlight_motion _ _ _)

/-! ### Effects taken in either order -/

theorem anyOrder_perm {α : Type} (fuel : Nat) (l : List α) (ix : Nat) : (anyOrder fuel l ix).Perm l := by
  induction fuel generalizing l ix with
  | zero => exact .refl _
  | succ fuel ih =>
    unfold anyOrder
    split
    · exact .refl _
    · split
      · exact .refl _
      · rename_i a h
        obtain ⟨lt, rfl⟩ := List.getElem?_eq_some_iff.mp h
        exact ((ih _ _).cons _).trans (List.getElem_cons_eraseIdx_perm lt)

/-- With at most one effect there is no choice to make. -/
theorem takeInAnyOrder_nil {α : Type} (act : α → State → State) (s : State) : takeInAnyOrder [] act s = s := rfl

theorem takeInAnyOrder_one {α : Type} (a : α) (act : α → State → State) (s : State) :
    takeInAnyOrder [a] act s = act a s := rfl

/-- A property that every effect keeps, whatever the count of choices, is kept by all of them in any order. -/
theorem takeInAnyOrder_keeps {α : Type} (P : State → Prop) (l : List α) (act : α → State → State) (s : State)
    (count : ∀ t k, P t → P { t with freeIndex := k }) (keeps : ∀ a ∈ l, ∀ t, P t → P (act a t)) (h : P s) :
    P (takeInAnyOrder l act s) := by
  unfold takeInAnyOrder
  have sub : ∀ m : List α, (∀ a ∈ m, ∀ t, P t → P (act a t)) → ∀ t, P t → P (m.foldl (fun t a => act a t) t) := by
    intro m
    induction m with
    | nil => exact fun _ t ht => ht
    | cons a m ih =>
      exact fun hm t ht => ih (fun b hb => hm b (List.mem_cons_of_mem _ hb)) _ (hm a List.mem_cons_self t ht)
  exact sub _ (fun a ha => keeps a ((anyOrder_perm _ _ _).mem_iff.mp ha)) _ (count _ _ h)

end Sys2Proof.Machine
end

