-- ==== Sys2Proof/Laws/Bus.lean ====
section
/-! SUPPORT. What the operations of the axis bus do: the check byte, the passing of the turn, the counting of a miss. -/

namespace Sys2Proof.Machine

theorem checkByte_eq (bytes : List Byte) : checkByte bytes = ~~~ bytes.sum := by
  rw [checkByte, ← List.sum_eq_foldl]

/-- The lowest-numbered configured axis from a number on (07, R136). -/
theorem configuredFrom_some {s : State} {k : Nat} {m : AxisId} (from_ : k ≤ m.val)
    (configured : (s.axis m).state ≠ .unconfigured)
    (first : ∀ j : AxisId, k ≤ j.val → j < m → (s.axis j).state = .unconfigured) : configuredFrom s k = some m := by
  have key : ∀ l : List AxisId, l.Pairwise (· < ·) → m ∈ l →
      l.find? (fun n => decide (k ≤ n.val) && decide ((s.axis n).state ≠ .unconfigured)) = some m := by
    intro l
    induction l with
    | nil => simp
    | cons a l ih =>
      intro sorted mem
      obtain ⟨below, sorted⟩ := List.pairwise_cons.mp sorted
      by_cases e : a = m
      · subst e; simp [from_, configured]
      · have mem := (List.mem_cons.mp mem).resolve_left (Ne.symm e)
        rw [List.find?_cons_of_neg, ih sorted mem]
        by_cases h : k ≤ a.val
        · simp [first a h (below m mem)]
        · simp [h]
  exact key allAxes (by decide) (mem_allAxes m)

theorem configuredFrom_none {s : State} {k : Nat} (h : ∀ m : AxisId, k ≤ m.val → (s.axis m).state = .unconfigured) :
    configuredFrom s k = none := by
  simp only [configuredFrom, List.find?_eq_none, Bool.and_eq_true, decide_eq_true_eq]
  exact fun m _ hm => hm.2 (h m hm.1)

/-- All that the passing of a turn does (07, R136, R138). -/
theorem passTurn_passed (x : Turn) (s : State) : TurnPassed x s (passTurn x s) := by
  obtain ⟨axis, kind⟩ := x
  cases kind with
  | write =>
    exact ⟨rfl, fun _ => ⟨rfl, rfl, rfl⟩, by simp, by simp, by simp⟩
  | read =>
    refine ⟨?_, by simp, ?_, ?_, ?_⟩
    · simp only [passTurn]
      split
      · rfl
      · unfold endRound beginRound; repeat' split
        all_goals rfl
    · intro _ m lt hm first
      simp [passTurn, configuredFrom_some (k := axis.val + 1) lt hm first]
    · intro _ none idle
      simp [passTurn, configuredFrom_none (k := axis.val + 1) none, endRound, idle]
    · intro _ none folded m hm first
      have found : configuredFrom { s with exchange := Option.none, roundPending := false } 0 = some m :=
        configuredFrom_some (Nat.zero_le _) hm fun j _ lt => first j lt
      simp [passTurn, configuredFrom_none (k := axis.val + 1) none, endRound, folded, beginRound, found]

/-- The passing of a turn changes nothing but the bus controller's own records. -/
theorem passTurn_frame (x : Turn) (s : State) :
    passTurn x s = { s with exchange := none, turn := (passTurn x s).turn, round := (passTurn x s).round,
                            roundPending := (passTurn x s).roundPending } := by
  have began : ∀ t : State, beginRound t = { t with turn := (beginRound t).turn, round := (beginRound t).round } := by
    intro t; unfold beginRound; split <;> rfl
  unfold passTurn
  split
  · rfl
  · split
    · rfl
    · unfold endRound
      dsimp only
      split
      · rw [began]
      · rfl

/-- A command that leaves another flight state than it met has a next state. -/
theorem stateAfter_next {s : State} {o : Out} {f : FlightId} (h : ((stateAfter s o).flight f).state ≠ (s.flight f).state) :
    o = .next (stateAfter s o) := by
  cases o with
  | next t => rfl
  | fault r => exact absurd rfl h
  | refused r => exact absurd rfl h

/-- A trip that the command right behind sends a flight is the one that running it sends (04, R78). -/
theorem tripBehind_some {f : FlightId} {s : State} {other : TripCause} (h : tripBehind f s = some other) :
    ∃ c rest u, s.pending = c :: rest ∧ exec c { s with pending := rest } = .next u ∧ (s.flight f).state ≠ .tripped ∧
      (u.flight f).state = .tripped ∧ (u.flight f).tripCause = some other := by
  unfold tripBehind at h
  dsimp only at h
  split at h
  · rename_i trips
    cases queue : s.pending with
    | nil =>
      unfold commandBehind at trips
      rw [queue] at trips
      exact absurd trips.2 trips.1
    | cons c rest =>
      refine ⟨c, rest, commandBehind s, rfl, ?_, trips.1, trips.2, h⟩
      have moved : ((commandBehind s).flight f).state ≠ (({ s with pending := rest } : State).flight f).state := by
        rw [trips.2]; exact trips.1.symm
      unfold commandBehind at moved ⊢
      rw [queue] at moved ⊢
      cases c <;> first | exact stateAfter_next moved | exact absurd rfl moved
  · cases h

/-- All that the trip request of a faulting read can meet: the state of the read, or the one that the trip of the command right
behind it leaves (04, R78). -/
theorem meetTrip_spec (x : Turn) (cause : FaultCause) (s : State) :
    meetTrip x cause s = s ∨ meetTrip x cause s = { s with freeIndex := s.freeIndex + 1 } ∨
      ∃ f other, (s.axis x.axis).flight = some f ∧ (s.axis x.axis).released = true ∧
        tripBehind f (faultWaiting x cause s) = some other ∧
        meetTrip x cause s = tripFlight f other { s with freeIndex := s.freeIndex + 1 } := by
  unfold meetTrip
  split
  · exact .inl rfl
  · rename_i f hf
    split
    · rename_i released
      split
      · exact .inl rfl
      · rename_i other behind
        dsimp only
        split
        · exact .inr (.inr ⟨f, other, hf, released, behind, rfl⟩)
        · exact .inr (.inl rfl)
    · exact .inl rfl

/-- With no trip right behind it, a faulting read trips its flight as it stands (04, R69, R76). -/
theorem faultAtRead_alone {x : Turn} {cause : FaultCause} {s : State} (h : ∀ f, tripBehind f (faultWaiting x cause s) = none) :
    faultAtRead x cause s = faultAxis x.axis cause s := by
  have idle : meetTrip x cause s = s := by
    unfold meetTrip
    split
    · rfl
    · simp [h]
  rw [faultAtRead, idle]

theorem missedAfter_eq (a : Axis) : missedAfter a = missedStreakAfter a := by
  unfold missedAfter missedStreakAfter streakLimit
  cases a.state <;> dsimp only
  any_goals omega
  split
  · omega
  · split <;> omega

theorem writesAfter_eq (a : Axis) (kind : ExchangeKind) : writesAfter a kind = writeStreakAfter a kind := by
  cases kind
  · simp only [writesAfter, writeStreakAfter, streakLimit]; omega
  · rfl

end Sys2Proof.Machine
end

