-- ==== Sys2Proof/Laws/Bytes.lean ====
section
/-! SUPPORT. Numbers and flags as bytes: what a packed byte or field holds, and that a field read back is what was written. -/

namespace Sys2Proof.Machine

theorem packBits_testBit (flags : List Bool) (b : Nat) : (packBits flags).testBit b = flags.getD b false := by
  induction flags generalizing b with
  | nil => simp [packBits]
  | cons x xs ih =>
    have step : packBits (x :: xs) = 2 * packBits xs + x.toNat := by simp [packBits, Nat.add_comm]
    rw [step]
    cases b with
    | zero => cases x <;> simp
    | succ b =>
      rw [Nat.testBit_succ]
      have half : (2 * packBits xs + x.toNat) / 2 = packBits xs := by cases x <;> simp; omega
      rw [half, ih]
      rfl

/-- Bit b of up to eight flags in a byte is flag b. -/
theorem flagsByte_getLsbD (flags : List Bool) {b : Nat} (h : b < 8) : (flagsByte flags).getLsbD b = flags.getD b false := by
  rw [flagsByte, BitVec.getLsbD_ofNat, packBits_testBit]
  simp [h]

theorem halfAt_halfBytes (h : Half) (rest : List Byte) : halfAt (halfBytes h ++ rest) 0 = h := by
  simp only [halfBytes, halfAt, byteAt, List.cons_append, List.getD_cons_zero, List.getD_cons_succ, zero_add]
  ext i hi
  simp only [BitVec.getElem_append, BitVec.getElem_extractLsb']
  split
  · simp [← BitVec.getLsbD_eq_getElem]
  · rw [← BitVec.getLsbD_eq_getElem]; congr 1; omega

/-- The two bytes of up to sixteen flags, read back as a field, have flag b in bit b. -/
theorem halfAt_flagsHalf (flags : List Bool) {b : Nat} (h : b < 16) (rest : List Byte) :
    (halfAt (flagsHalf flags ++ rest) 0).getLsbD b = flags.getD b false := by
  rw [flagsHalf, halfAt_halfBytes, BitVec.getLsbD_ofNat, packBits_testBit]
  simp [h]

theorem wordAt_wordBytes (w : Word) (rest : List Byte) : wordAt (wordBytes w ++ rest) 0 = w := by
  simp only [wordBytes, wordAt, byteAt, List.cons_append, List.getD_cons_zero, List.getD_cons_succ, zero_add]
  ext i hi
  simp only [BitVec.getElem_append, BitVec.getElem_extractLsb']
  repeat' split
  all_goals
    rw [← BitVec.getLsbD_eq_getElem]
    congr 1
    omega

/-- A field behind a prefix of a BODY is the field at that place of the rest. -/
theorem byteAt_append (pre rest : List Byte) (i : Nat) : byteAt (pre ++ rest) (pre.length + i) = byteAt rest i := by
  simp [byteAt, List.getD_eq_getElem?_getD, List.getElem?_append_right]

theorem halfAt_append (pre rest : List Byte) (i : Nat) : halfAt (pre ++ rest) (pre.length + i) = halfAt rest i := by
  simp only [halfAt, Nat.add_assoc, byteAt_append]

theorem wordAt_append (pre rest : List Byte) (i : Nat) : wordAt (pre ++ rest) (pre.length + i) = wordAt rest i := by
  simp only [wordAt, Nat.add_assoc, byteAt_append]

@[simp] theorem halfBytes_length (h : Half) : (halfBytes h).length = 2 := rfl
@[simp] theorem wordBytes_length (w : Word) : (wordBytes w).length = 4 := rfl

end Sys2Proof.Machine
end

