-- ==== Sys2Proof/Laws/Path.lean ====
section
/-! SUPPORT. Frames of the path work: a start, a completion and a step of one flight leave the other flights and the blocks
outside motion as they were. -/

namespace Sys2Proof.Machine

/-- A step of one flight's work: only the motion parts change, and no other flight. -/
structure FlightWork (f : FlightId) (s t : State) : Prop where
  motion : OnlyMotionChanged s t
  others : OtherFlightsKept f s t

theorem FlightWork.refl (f : FlightId) (s : State) : FlightWork f s s := ⟨.refl _, .refl _ _⟩

theorem FlightWork.trans {f : FlightId} {s t u : State} (h : FlightWork f s t) (k : FlightWork f t u) :
    FlightWork f s u := ⟨h.motion.trans k.motion, h.others.trans k.others⟩

theorem updFlight_work (f : FlightId) (g : Flight → Flight) (s : State) : FlightWork f s (s.updFlight f g) :=
  ⟨updFlight_motion _ _ _, updFlight_others _ _ _⟩

theorem putFlightState_work (f : FlightId) (x : FlightState) (s : State) : FlightWork f s (putFlightState f x s) :=
  ⟨putFlightState_motion _ _ _, putFlightState_others _ _ _⟩

theorem mapAxes_work (f : FlightId) (g : AxisId → Axis → Axis) (s : State) : FlightWork f s (s.mapAxes g) :=
  ⟨mapAxes_motion _ _, fun _ _ => rfl⟩

theorem raiseFlight_work (f h : FlightId) (g : FlightNotices → FlightNotices) (s : State) :
    FlightWork f s (raiseFlight h g s) := ⟨mapPorts_motion _ _, fun _ _ => rfl⟩

theorem tripFlight_work (f : FlightId) (cause : TripCause) (s : State) : FlightWork f s (tripFlight f cause s) :=
  ⟨tripFlight_motion _ _ _, tripFlight_others _ _ _⟩

theorem holdFlight_work (f : FlightId) (cause : HoldCause) (s : State) : FlightWork f s (holdFlight f cause s) :=
  ⟨holdFlight_motion _ _ _, holdFlight_others _ _ _⟩

theorem restrainFlight_work (f : FlightId) (cause : HoldCause) (s : State) :
    FlightWork f s (restrainFlight f cause s) := ⟨restrainFlight_motion _ _ _, restrainFlight_others _ _ _⟩

theorem rejectStart_work (f : FlightId) (s : State) : FlightWork f s (rejectStart f s) := by
  unfold rejectStart
  split
  · exact raiseFlight_work _ _ _ _
  · exact (raiseFlight_work _ _ _ _).trans (putFlightState_work _ _ _)

theorem activate_work (f : FlightId) (seg : Segment) (byCue : Bool) (s : State) :
    FlightWork f s (activate f seg byCue s) := by
  unfold activate
  dsimp only
  split
  · exact ((updFlight_work _ _ _).trans (raiseFlight_work _ _ _ _)).trans (putFlightState_work _ _ _)
  · exact (updFlight_work _ _ _).trans (putFlightState_work _ _ _)

theorem startHead_work (byCue : Bool) (f : FlightId) (s : State) : FlightWork f s (startHead byCue f s).1 := by
  unfold startHead
  split
  · exact .refl _ _
  · dsimp only
    split
    · exact (updFlight_work _ _ _).trans (rejectStart_work _ _)
    · split
      · exact (updFlight_work _ _ _).trans (rejectStart_work _ _)
      · exact (updFlight_work _ _ _).trans (activate_work _ _ _ _)

theorem followDecision_work (f : FlightId) (s : State) : FlightWork f s (followDecision f s) := by
  unfold followDecision
  split
  · exact putFlightState_work _ _ _
  · split
    · exact startHead_work _ _ _
    · exact putFlightState_work _ _ _

theorem recycleCopy_work (f : FlightId) (seg : Segment) (s : State) : FlightWork f s (recycleCopy f seg s) := by
  unfold recycleCopy
  split
  · split
    · exact updFlight_work _ _ _
    · exact raiseFlight_work _ _ _ _
  · exact .refl _ _

theorem closeSegment_work (f : FlightId) (act : Active) (s : State) : FlightWork f s (closeSegment f act s) := by
  unfold closeSegment
  exact ((raiseFlight_work _ _ _ _).trans (recycleCopy_work _ _ _)).trans (updFlight_work _ _ _)

theorem completeMoving_work (f : FlightId) (act : Active) (s : State) : FlightWork f s (completeMoving f act s) := by
  unfold completeMoving
  dsimp only
  split
  · exact (closeSegment_work _ _ _).trans (followDecision_work _ _)
  · exact ((closeSegment_work _ _ _).trans (updFlight_work _ _ _)).trans (putFlightState_work _ _ _)

theorem completeStopping_work (f : FlightId) (act : Active) (s : State) :
    FlightWork f s (completeStopping f act s) := by
  unfold completeStopping
  dsimp only
  split
  · exact (closeSegment_work _ _ _).trans (putFlightState_work _ _ _)
  · exact ((closeSegment_work _ _ _).trans (updFlight_work _ _ _)).trans (putFlightState_work _ _ _)

theorem writeSetPoints_work (f : FlightId) (act : Active) (s : State) : FlightWork f s (writeSetPoints f act s) := by
  unfold writeSetPoints
  split
  · exact .refl _ _
  · exact mapAxes_work _ _ _

theorem advance_work (f : FlightId) (act : Active) (s : State) : FlightWork f s (advance f act s) :=
  (updFlight_work _ _ _).trans (writeSetPoints_work _ _ _)

theorem movingStep_work (f : FlightId) (act : Active) (s : State) : FlightWork f s (movingStep f act s) := by
  unfold movingStep
  dsimp only
  split
  · exact completeMoving_work _ _ _
  · split
    · exact (advance_work _ _ _).trans (completeMoving_work _ _ _)
    · exact advance_work _ _ _

theorem stoppingStep_work (f : FlightId) (act : Active) (s : State) : FlightWork f s (stoppingStep f act s) := by
  unfold stoppingStep
  dsimp only
  split
  · exact (advance_work _ _ _).trans (completeStopping_work _ _ _)
  · split
    · exact (advance_work _ _ _).trans (putFlightState_work _ _ _)
    · exact advance_work _ _ _

theorem endDwell_work (f : FlightId) (s : State) : FlightWork f s (endDwell f s) :=
  (updFlight_work _ _ _).trans (followDecision_work _ _)

theorem dwellStep_work (f : FlightId) (d : Nat) (s : State) : FlightWork f s (dwellStep f d s) := by
  unfold dwellStep
  split
  · exact endDwell_work _ _
  · exact updFlight_work _ _ _

theorem armingStep_work (f : FlightId) (t : Nat) (s : State) : FlightWork f s (armingStep f t s) := by
  unfold armingStep
  dsimp only
  split
  · split
    · exact (updFlight_work _ _ _).trans (tripFlight_work _ _ _)
    · exact updFlight_work _ _ _
  · exact updFlight_work _ _ _

theorem pathStep_work (f : FlightId) (s : State) : FlightWork f s (pathStep f s) := by
  unfold pathStep
  split <;> try split
  all_goals
    first
    | exact .refl _ _
    | exact movingStep_work _ _ _
    | exact stoppingStep_work _ _ _
    | exact dwellStep_work _ _ _
    | exact armingStep_work _ _ _

end Sys2Proof.Machine
end

