-- ==== Sys2Proof/Laws/Requests.lean ====
section
/-! SUPPORT. How a request reaches its owner and how its reply starts. -/

namespace Sys2Proof.Machine

/-! ### A station heard (06, R117, R119) -/

@[simp] theorem markHeard_flights (st : Station) (s : State) : (markHeard st s).flights = s.flights := rfl
@[simp] theorem markHeard_flight (st : Station) (s : State) (f : FlightId) : (markHeard st s).flight f = s.flight f := rfl
@[simp] theorem markHeard_axes (st : Station) (s : State) : (markHeard st s).axes = s.axes := rfl
@[simp] theorem markHeard_axis (st : Station) (s : State) (n : AxisId) : (markHeard st s).axis n = s.axis n := rfl
@[simp] theorem markHeard_links (st : Station) (s : State) : (markHeard st s).links = s.links := rfl
@[simp] theorem markHeard_link (st : Station) (s : State) (i : LinkId) : (markHeard st s).link i = s.link i := rfl
@[simp] theorem markHeard_slots (st : Station) (s : State) : (markHeard st s).slots = s.slots := rfl
@[simp] theorem markHeard_slot (st : Station) (s : State) (k : SlotId) : (markHeard st s).slot k = s.slot k := rfl
@[simp] theorem markHeard_lines (st : Station) (s : State) : (markHeard st s).lines = s.lines := rfl
@[simp] theorem markHeard_line (st : Station) (s : State) (n : LineId) : (markHeard st s).line n = s.line n := rfl
@[simp] theorem markHeard_enables (st : Station) (s : State) : (markHeard st s).enables = s.enables := rfl
@[simp] theorem markHeard_scanMode (st : Station) (s : State) : (markHeard st s).scanMode = s.scanMode := rfl
@[simp] theorem markHeard_scanState (st : Station) (s : State) : (markHeard st s).scanState = s.scanState := rfl
@[simp] theorem markHeard_round (st : Station) (s : State) : (markHeard st s).round = s.round := rfl
@[simp] theorem markHeard_roundPending (st : Station) (s : State) : (markHeard st s).roundPending = s.roundPending := rfl
@[simp] theorem markHeard_turn (st : Station) (s : State) : (markHeard st s).turn = s.turn := rfl
@[simp] theorem markHeard_exchange (st : Station) (s : State) : (markHeard st s).exchange = s.exchange := rfl
@[simp] theorem markHeard_stepCounter (st : Station) (s : State) : (markHeard st s).stepCounter = s.stepCounter := rfl
@[simp] theorem markHeard_timerRunning (st : Station) (s : State) : (markHeard st s).timerRunning = s.timerRunning := rfl
@[simp] theorem markHeard_resetAsserted (st : Station) (s : State) :
    (markHeard st s).resetAsserted = s.resetAsserted := rfl
@[simp] theorem markHeard_brakes (st : Station) (s : State) : (markHeard st s).brakes = s.brakes := rfl
@[simp] theorem markHeard_brake (st : Station) (s : State) (n : AxisId) : (markHeard st s).brake n = s.brake n := rfl
@[simp] theorem markHeard_sounder (st : Station) (s : State) : (markHeard st s).sounder = s.sounder := rfl
@[simp] theorem markHeard_faultLine (st : Station) (s : State) : (markHeard st s).faultLine = s.faultLine := rfl
@[simp] theorem markHeard_freeIndex (st : Station) (s : State) : (markHeard st s).freeIndex = s.freeIndex := rfl
@[simp] theorem markHeard_pending (st : Station) (s : State) : (markHeard st s).pending = s.pending := rfl
@[simp] theorem markHeard_persists (st : Station) (s : State) (f : FlightId) : (markHeard st s).persists f = s.persists f := rfl
@[simp] theorem markHeard_memberAxes (st : Station) (s : State) (f : FlightId) :
    (markHeard st s).memberAxes f = s.memberAxes f := rfl
@[simp] theorem markHeard_loadPasses (st : Station) (s : State) (f : FlightId) :
    loadPasses (markHeard st s) f = loadPasses s f := rfl

@[simp] theorem markHeard_silent (st u : Station) (s : State) :
    (markHeard st s).silents.get u = if u = st then false else s.silents.get u := by
  simp [markHeard]

@[simp] theorem markHeard_port (st u : Station) (s : State) :
    (markHeard st s).port u = if u = st then { s.port u with silence := 0 } else s.port u := by
  simp [markHeard, State.updPort_port]

/-- A station heard may start what its enable lets it start (06, R111). -/
@[simp] theorem markHeard_mayStart (st : Station) (s : State) : (markHeard st s).mayStart st = s.enables.get st := by
  simp [State.mayStart]

/-- A station that has been heard is heard again without effect. -/
@[simp] theorem markHeard_markHeard (st : Station) (s : State) : markHeard st (markHeard st s) = markHeard st s := by
  cases st <;> rfl

/-! ### The way of a request -/

/-- With RESETN not asserted a request is taken: its station is heard, its owner acts and its reply starts. -/
theorem onRequest_live {st : Station} {kind : Byte} {serve : State → State × Answer} {s : State}
    (live : s.resetAsserted = false) :
    onRequest st kind serve s =
      .next (startReply st kind (serve (markHeard st s)).2 (serve (markHeard st s)).1) := by
  simp [onRequest, live, takeRequest]

/-- While RESETN is asserted a request changes nothing. -/
theorem onRequest_reset {st : Station} {kind : Byte} {serve : State → State × Answer} {s : State}
    (down : s.resetAsserted = true) : onRequest st kind serve s = .next s := by
  simp [onRequest, down]

theorem flightOf_of_names {b : Byte} {f : FlightId} (h : NamesFlight b f) : flightOf b = some f := by
  unfold NamesFlight at h
  simp [flightOf, h]

theorem flightOf_none {b : Byte} (h : 6 ≤ b.toNat) : flightOf b = none := by
  simp [flightOf, Nat.not_lt.mpr h]

theorem names_of_flightOf {b : Byte} {f : FlightId} (h : flightOf b = some f) : NamesFlight b f := by
  unfold flightOf at h
  split at h
  · cases h; rfl
  · cases h

/-- A driving request of the claimer reaches its owner. -/
theorem driving_claimed {st : Station} {b : Byte} {f : FlightId} {s : State} {owner : FlightId → State × Answer}
    (hf : NamesFlight b f) (hc : (s.flight f).claim = some st) : driving st b s owner = owner f := by
  simp [driving, flightOf_of_names hf, hc]

/-- A driving request of another station is refused. -/
theorem driving_unclaimed {st : Station} {b : Byte} {f : FlightId} {s : State} {owner : FlightId → State × Answer}
    (hf : NamesFlight b f) (hc : (s.flight f).claim ≠ some st) : driving st b s owner = refuse s .notClaimed := by
  simp [driving, flightOf_of_names hf, hc]

/-- A driving request that names no flight is refused by the port. -/
theorem driving_noFlight {st : Station} {b : Byte} {s : State} {owner : FlightId → State × Answer}
    (hb : 6 ≤ b.toNat) : driving st b s owner = refuse s .badParameter := by
  simp [driving, flightOf_none hb]

/-- ARM, GO and RESUME of a claimer that may start reach their owner. -/
theorem drivingEnabled_claimed {st : Station} {b : Byte} {f : FlightId} {s : State}
    {owner : FlightId → State × Answer} (hf : NamesFlight b f) (hc : (s.flight f).claim = some st)
    (he : s.mayStart st = true) : drivingEnabled st b s owner = owner f := by
  simp [drivingEnabled, driving_claimed hf hc, he]

/-- The starting reply of a port and the ports of the others. -/
theorem startReply_port (st u : Station) (kind : Byte) (ans : Answer) (s : State) :
    (startReply st kind ans s).port u =
      if u = st then { s.port u with tx := .sending (replyFrame kind ans) } else s.port u := by
  simp [startReply, State.updPort_port]

/-- A frame's LENGTH byte, KIND and BODY between SYNC and CRC. -/
theorem frameBytes_eq (kind : Byte) (body : List Byte) :
    frameBytes kind body =
      0xA5 :: (natByte (body.length + 1) :: kind :: body) ++
        halfBytes (crc16 (natByte (body.length + 1) :: kind :: body)) := rfl

end Sys2Proof.Machine
end

