-- ==== Sys2Proof/Laws/Operands.lean ====
section
/-! SUPPORT. What each decoder of a request's fields takes and refuses, and what the reflex table's conditions and links mean. -/

namespace Sys2Proof.Machine

theorem inRange_iff (lo hi x : Int) : inRange lo hi x = true ↔ lo ≤ x ∧ x ≤ hi := by simp [inRange]

theorem axisOf_some {b : Byte} {n : AxisId} (h : b.toNat = n.val) : axisOf b = some n := by
  simp [axisOf, h]

theorem axisOf_none {b : Byte} (h : 12 ≤ b.toNat) : axisOf b = none := by simp [axisOf, Nat.not_lt.mpr h]

theorem linkOf_some {b : Byte} {i : LinkId} (h : b.toNat = i.val) : linkOf b = some i := by
  simp [linkOf, h]

theorem linkOf_none {b : Byte} (h : 24 ≤ b.toNat) : linkOf b = none := by simp [linkOf, Nat.not_lt.mpr h]

theorem slotOf_some {b : Byte} {k : SlotId} (h : b.toNat = k.val) : slotOf b = some k := by
  simp [slotOf, h]

theorem slotOf_none {b : Byte} (h : 8 ≤ b.toNat) : slotOf b = none := by simp [slotOf, Nat.not_lt.mpr h]

theorem inputOf_some {b : Byte} {k : Fin 8} (h : b.toNat = k.val) : inputOf b = some k := by
  simp [inputOf, h]

theorem inputOf_none {b : Byte} (h : 8 ≤ b.toNat) : inputOf b = none := by simp [inputOf, Nat.not_lt.mpr h]

theorem flagOf_some {b : Byte} (h : b.toNat < 2) : flagOf b = some (decide (b = 1)) := by
  rcases b with ⟨⟨v, hv⟩⟩
  have : v = 0 ∨ v = 1 := by simp at h; omega
  rcases this with rfl | rfl <;> rfl

theorem flagOf_none {b : Byte} (h : 2 ≤ b.toNat) : flagOf b = none := by
  unfold flagOf; split <;> first | omega | rfl

theorem tensionOf_some {h : Half} (lo : -4095 ≤ h.toInt) (hi : h.toInt ≤ 4095) : tensionOf h = some h.toInt := by
  simp [tensionOf, inRange, maxTension, lo, hi]

theorem tensionOf_none {h : Half} (out : h.toInt < -4095 ∨ 4095 < h.toInt) : tensionOf h = none := by
  unfold tensionOf maxTension
  rw [if_neg]
  rw [inRange_iff]
  push_cast
  omega

/-- A SET-FLIGHT-LIMITS with every field in its range is taken (01, R20). -/
theorem limitsOf_some {d lo hi : Half} (d1 : 1 ≤ d.toNat) (d2 : d.toNat ≤ 1024) (low : -4095 ≤ lo.toInt)
    (high : hi.toInt ≤ 4095) (order : lo.toInt ≤ hi.toInt) : limitsOf d lo hi = some (d.toNat, lo.toInt, hi.toInt) := by
  unfold limitsOf
  rw [tensionOf_some low (by omega), tensionOf_some (by omega) high]
  dsimp only
  rw [if_pos]
  exact ⟨(inRange_iff _ _ _).2 ⟨by omega, by simp [maxAccel]; omega⟩, order⟩

/-- A SET-FLIGHT-LIMITS with a field out of its range is not (01, R20). -/
theorem limitsOf_none {d lo hi : Half}
    (out : d.toNat < 1 ∨ 1024 < d.toNat ∨ lo.toInt < -4095 ∨ 4095 < lo.toInt ∨ hi.toInt < -4095 ∨ 4095 < hi.toInt ∨
      hi.toInt < lo.toInt) : limitsOf d lo hi = none := by
  unfold limitsOf
  by_cases a : lo.toInt < -4095 ∨ 4095 < lo.toInt
  · rw [tensionOf_none a]
  by_cases b : hi.toInt < -4095 ∨ 4095 < hi.toInt
  · rw [tensionOf_none b]; split <;> simp_all
  rw [tensionOf_some (by omega) (by omega), tensionOf_some (by omega) (by omega)]
  dsimp only
  rw [if_neg]
  rw [inRange_iff]; simp only [maxAccel]; push_cast; omega

/-- A CONFIGURE-AXIS with every parameter in its range is taken (01, R5 check 1). -/
theorem paramsOf_some {address : Byte} {lower upper vmax : Word} {amax : Half} {window : Word} {slot : Byte}
    {k : Option SlotId} (h1 : 0x08 ≤ address.toNat) (h2 : address.toNat ≤ 0x77) (h3 : 0 ≤ lower.toInt)
    (h4 : lower.toInt < upper.toInt) (h5 : upper.toInt ≤ 60000000) (h6 : 1 ≤ vmax.toNat) (h7 : vmax.toNat ≤ 192000)
    (h8 : 1 ≤ amax.toNat) (h9 : amax.toNat ≤ 1024) (h10 : 1 ≤ window.toNat) (h11 : window.toNat ≤ 1000000)
    (hk : (slot = 0xFF ∧ k = none) ∨ ∃ q : SlotId, slot.toNat = q.val ∧ k = some q) :
    paramsOf address lower upper vmax amax window slot =
      some { address := address.setWidth 7, lower := lower.toInt, upper := upper.toInt, vmax := vmax.toNat,
             amax := amax.toNat, window := window.toNat, slot := k } := by
  have field : slotFieldOf slot = some k := by
    rcases hk with ⟨rfl, rfl⟩ | ⟨q, hq, rfl⟩
    · rfl
    · unfold slotFieldOf
      have ne : slot ≠ 0xFF := by rintro rfl; simp at hq; omega
      rw [if_neg ne, slotOf_some hq]; rfl
  unfold paramsOf
  simp only [field]
  rw [if_pos]
  simp only [Bool.and_eq_true, decide_eq_true_eq, inRange_iff]
  refine ⟨⟨⟨⟨⟨⟨?_, h3⟩, h4⟩, h5⟩, ?_⟩, ?_⟩, ?_⟩ <;> push_cast [maxSpeed, maxAccel, maxWindow] <;> omega

/-- An APPEND with every field in its range is taken (02, R24 check 1). -/
theorem segmentOf_some {tag : Half} {presence : Byte} {t0 t1 t2 t3 vmax : Word} {aUp aDn dwell : Half}
    {start flags : Byte} {k : StartKind} (h1 : presence.toNat < 16) (h2 : flags.toNat < 4) (h3 : 1 ≤ vmax.toNat)
    (h4 : vmax.toNat ≤ 192000) (h5 : 1 ≤ aUp.toNat) (h6 : aUp.toNat ≤ 1024) (h7 : 1 ≤ aDn.toNat) (h8 : aDn.toNat ≤ 1024)
    (hk : start = 0 ∧ k = .go ∨ start = 1 ∧ k = .cue ∨ start = 2 ∧ k = .follow) :
    segmentOf tag presence t0 t1 t2 t3 vmax aUp aDn dwell start flags =
      some { tag := tag, targets := targetsOf presence t0 t1 t2 t3, vmax := vmax.toNat, aUp := aUp.toNat,
             aDn := aDn.toNat, dwell := dwell.toNat, start := k, recycle := flags.getLsbD 0,
             loadCheck := flags.getLsbD 1 } := by
  have kind : startKindOf start = some k := by rcases hk with ⟨rfl, rfl⟩ | ⟨rfl, rfl⟩ | ⟨rfl, rfl⟩ <;> rfl
  unfold segmentOf
  simp only [kind]
  rw [if_pos]
  simp [inRange, maxSpeed, maxAccel]
  omega

/-! ### The codes of a link (10, R180) -/

theorem sourceOf_byte (x : Source) : sourceOf x.byte = some x := by
  cases x with
  | line n => revert n; decide
  | slot k => revert k; decide

theorem conditionOf_byte (x : Condition) : conditionOf x.byte = some x := by cases x <;> rfl

theorem actionOf_codes (x : Action) (a b : Byte) (h : [a, b] = x.codes) : actionOf a b = some x := by
  cases x <;> simp [Action.codes] at h <;> obtain ⟨rfl, rfl⟩ := h
  case holdAll | tripAll => rfl
  case holdFlight f | tripFlight f | cueFlight f => revert f; decide
  case enableStation st => cases st <;> rfl

/-- The codes of a link that R163 takes spell that link. -/
theorem linkFieldsOf_codes (l : Link) (a b : Byte) (h : [a, b] = l.action.codes) (fits : l.cond.fits l.source = true)
    (allows : l.action.allows l.cond = true) : linkFieldsOf l.source.byte l.cond.byte a b = some l := by
  unfold linkFieldsOf
  rw [sourceOf_byte, conditionOf_byte, actionOf_codes _ _ _ h]
  simp [fits, allows]

theorem sourceOf_eq (b : Byte) : ∀ x ∈ sourceOf b, b = x.byte := by revert b; decide +kernel

theorem conditionOf_eq (b : Byte) : ∀ x ∈ conditionOf b, b = x.byte := by revert b; decide +kernel

theorem flightOf_eq (b : Byte) : ∀ f ∈ flightOf b, b = natByte f := by revert b; decide +kernel

theorem stationOf_eq (b : Byte) : ∀ st ∈ stationOf b, b = stationByte st := by revert b; decide +kernel

/-- An action's codes are the two bytes that spell it. -/
theorem actionOf_eq (a b : Byte) (x : Action) (h : actionOf a b = some x) : [a, b] = x.codes := by
  have spelled {n : Nat} (e : a.toNat = n) : a = BitVec.ofNat 8 n := by rw [← e]; simp
  unfold actionOf at h
  split at h <;> rename_i e
  case h_7 => cases h
  all_goals rw [spelled e]
  case h_2 | h_4 =>
    split at h
    · rename_i none; cases h; rw [none]; rfl
    · cases h
  case h_6 =>
    obtain ⟨st, hst, rfl⟩ := Option.map_eq_some_iff.mp h
    rw [stationOf_eq b st hst]; rfl
  all_goals
    obtain ⟨f, hf, rfl⟩ := Option.map_eq_some_iff.mp h
    rw [flightOf_eq b f hf]; rfl

/-- What a SET-LINK's codes spell has these codes, and is a link that R163 takes. -/
theorem linkFieldsOf_some {source cond a b : Byte} {l : Link} (h : linkFieldsOf source cond a b = some l) :
    source = l.source.byte ∧ cond = l.cond.byte ∧ [a, b] = l.action.codes ∧ l.cond.fits l.source = true ∧
      l.action.allows l.cond = true := by
  unfold linkFieldsOf at h
  split at h
  · rename_i src c act hs hc ha
    split at h
    · rename_i both
      obtain rfl := Option.some.inj h
      rw [Bool.and_eq_true] at both
      exact ⟨sourceOf_eq _ _ hs, conditionOf_eq _ _ hc, actionOf_eq _ _ _ ha, both.1, both.2⟩
    · cases h
  · cases h

/-! ### Conditions and links -/

theorem holds_iff (l : Link) (s : State) : l.holds s = true ↔ l.ConditionTrue s := by
  obtain ⟨src, cond, act⟩ := l
  cases src <;> cases cond <;> simp [Link.holds, levelHolds, Link.ConditionTrue]

theorem stops_iff (l : Link) (f : FlightId) : l.action.stops f = true ↔ l.Targets f := by
  obtain ⟨src, cond, act⟩ := l
  cases act <;> simp [Action.stops, Link.Targets]

theorem anyLink_iff (s : State) (p : Link → Bool) : s.anyLink p = true ↔ ∃ i l, s.link i = some l ∧ p l = true := by
  simp only [State.anyLink, List.any_eq_true, mem_allLinks, true_and]
  refine exists_congr fun i => ?_
  cases s.link i <;> simp

theorem persists_iff (s : State) (f : FlightId) :
    s.persists f = true ↔ ∃ i l, s.link i = some l ∧ l.Targets f ∧ l.ConditionTrue s := by
  simp only [State.persists, anyLink_iff, Bool.and_eq_true, stops_iff, holds_iff]

theorem not_persists {s : State} {f : FlightId}
    (h : ∀ i l, s.link i = some l → l.Targets f → ¬l.ConditionTrue s) : s.persists f = false := by
  rw [Bool.eq_false_iff]
  intro hp
  obtain ⟨i, l, a, b, c⟩ := (persists_iff s f).mp hp
  exact h i l a b c

/-- A station's enable as its links give it (06, R113). -/
theorem enableOf_iff (s : State) (st : Station) :
    enableOf s st = true ↔ EnableHolds st s := by
  unfold enableOf EnableHolds
  rw [Bool.and_eq_true, anyLink_iff, Bool.not_eq_true', Bool.eq_false_iff, Ne, anyLink_iff]
  simp only [decide_eq_true_eq, Bool.and_eq_true, Bool.not_eq_true', ← Bool.not_eq_true, holds_iff, not_exists, not_and,
    not_not]

/-- With no link on a source no link acts at an event of it. -/
theorem actingLinks_nil {s : State} {src : Source} (h : NoLinkOn src s) (occurs : Condition → Bool) :
    actingLinks s src occurs = [] := by
  unfold actingLinks
  rw [List.filter_eq_nil_iff]
  intro i _
  cases hl : s.link i with
  | none => simp
  | some l => simp [h i l hl]

theorem linkSends_nil {s : State} {src : Source} (h : NoLinkOn src s) (occurs : Condition → Bool) :
    linkSends s src occurs = [] := by
  simp [linkSends, actingLinks_nil h]

theorem enableEffects_nil {s : State} {src : Source} (h : NoLinkOn src s) : enableEffects s src = [] := by
  unfold enableEffects
  rw [List.map_eq_nil_iff, List.filter_eq_nil_iff]
  intro st _
  rw [anyLink_iff]
  rintro ⟨i, l, hl, hp⟩
  simp [h i l hl] at hp

theorem sourceEvent_nothing {s : State} {src : Source} (h : NoLinkOn src s) (occurs : Condition → Bool)
    (recomputes : Bool) : sourceEvent src occurs recomputes s = s := by
  simp [sourceEvent, linkSends_nil h, enableEffects_nil h, takeInAnyOrder_nil]

/-- The only link on a source is the one that acts at an event of it, where its condition occurs. -/
theorem actingLinks_sole {i : LinkId} {l : Link} {s : State} (h : SoleLink i l s) (occurs : Condition → Bool) :
    actingLinks s l.source occurs = if occurs l.cond = true then [i] else [] := by
  have alone : ∀ L : List LinkId, L.Nodup → L.filter (fun j =>
      match s.link j with
      | none => false
      | some m => decide (m.source = l.source) && occurs m.cond) =
      if i ∈ L ∧ occurs l.cond = true then [i] else [] := by
    intro L
    induction L with
    | nil => simp
    | cons j L ih =>
      intro nodup
      obtain ⟨hj, nodup⟩ := List.nodup_cons.mp nodup
      rw [List.filter_cons, ih nodup]
      by_cases e : j = i
      · subst e
        simp only [h.1, decide_true, Bool.true_and, hj, false_and, if_false, List.mem_cons, true_or, true_and]
      · have silent : (match s.link j with
            | none => false
            | some m => decide (m.source = l.source) && occurs m.cond) = false := by
          cases hm : s.link j with
          | none => rfl
          | some m => simp [h.2 j m e hm]
        rw [silent]
        simp [Ne.symm e]
  exact (alone _ allLinks_nodup).trans (by simp [mem_allLinks])

/-- What the only link on a source sends at an event of it. -/
theorem linkSends_sole {i : LinkId} {l : Link} {s : State} (h : SoleLink i l s) (occurs : Condition → Bool) :
    linkSends s l.source occurs = if occurs l.cond = true then sends i l.action else [] := by
  unfold linkSends
  rw [actingLinks_sole h]
  split <;> simp [h.1]

/-- A source whose only link enables no station has no enable to compute again. -/
theorem enableEffects_sole {i : LinkId} {l : Link} {s : State} (h : SoleLink i l s)
    (other : ∀ u, l.action ≠ .enableStation u) : enableEffects s l.source = [] := by
  unfold enableEffects
  rw [List.map_eq_nil_iff, List.filter_eq_nil_iff]
  intro st _
  rw [anyLink_iff]
  rintro ⟨j, m, hm, hp⟩
  simp at hp
  by_cases e : j = i
  · subst e; rw [h.1] at hm; cases hm; exact other _ hp.2
  · exact h.2 j m e hm hp.1

/-- All that an event of a source does whose only link holds, trips or cues: the link's sends where its condition occurs (09,
R165, R166). -/
theorem sourceEvent_sole {i : LinkId} {l : Link} {s : State} (h : SoleLink i l s) (requests : l.Requests)
    (occurs : Condition → Bool) (recomputes : Bool) :
    sourceEvent l.source occurs recomputes s =
      if occurs l.cond = true then takeInAnyOrder (sends i l.action) takeEffect s else s := by
  unfold sourceEvent
  rw [linkSends_sole h, enableEffects_sole h requests]
  split <;> simp [takeInAnyOrder_nil]

theorem changeOccurs_iff (level : Level) (cond : Condition) : changeOccurs level cond = true ↔ cond.OnChange level := by
  cases level <;> cases cond <;> simp [changeOccurs, Condition.OnChange]

theorem settleOccurs_iff (level : Level) (cond : Condition) : settleOccurs level cond = true ↔ cond.OnSettling level := by
  cases level <;> cases cond <;> simp [settleOccurs, Condition.OnSettling]

theorem resultOccurs_iff (before after : Slot) (cond : Condition) :
    resultOccurs before after cond = true ↔ cond.OnResult before after := by
  cases cond <;> simp [resultOccurs, Condition.OnResult, and_comm, and_assoc]

/-! ### Start checks -/

theorem targetsWithin_iff (s : State) (f : FlightId) (seg : Segment) :
    targetsWithin (s.memberAxes f) seg = true ↔ TargetsFit s f seg := by
  unfold targetsWithin TargetsFit State.memberAxes
  rw [List.all_eq_true]
  constructor
  · intro h i n x hn hx
    have hm : ((s.axis n), i) ∈ (List.map s.axis (s.flight f).members).zipIdx := by
      rw [List.mem_zipIdx_iff_getElem?]
      simp [hn]
    have := h _ hm
    simp only [hx, targetWithin] at this
    cases hp : (s.axis n).params with
    | none => simp [hp] at this
    | some p => exact ⟨p, rfl, by simpa [hp, inRange_iff] using this⟩
  · rintro h ⟨a, i⟩ hm
    rw [List.mem_zipIdx_iff_getElem?] at hm
    simp only [List.getElem?_map, Option.map_eq_some_iff] at hm
    obtain ⟨n, hn, rfl⟩ := hm
    show targetWithin (s.axis n) (seg.target i) = true
    cases hx : seg.target i with
    | none => simp [targetWithin]
    | some x =>
      obtain ⟨p, hp, lo, hi⟩ := h i n x hn hx
      simp [targetWithin, hp, inRange_iff, lo, hi]

theorem loadPasses_iff (s : State) (f : FlightId) : loadPasses s f = true ↔ LoadsFit s f := by
  unfold loadPasses LoadsFit State.memberAxes
  simp only [List.all_map, List.all_eq_true, Function.comp]
  refine forall_congr' fun n => forall_congr' fun _ => ?_
  cases hp : (s.axis n).params with
  | none => simp
  | some p =>
    cases hk : p.slot with
    | none =>
      simp only [Option.bind_some, hk, true_iff]
      rintro q k ⟨⟩ hq
      simp [hk] at hq
    | some k =>
      simp only [Option.bind_some, hk, slotInWindow, Bool.and_eq_true, inRange_iff]
      refine ⟨?_, fun h => h p k rfl hk⟩
      rintro h q j ⟨⟩ hq
      cases hk.symm.trans hq
      exact h

/-! ### Starts (02, section 2.6) -/

@[simp] theorem memberAxes_queue (s : State) (f : FlightId) (q : List Segment) :
    (s.updFlight f fun r => { r with queue := q }).memberAxes f = s.memberAxes f := by
  simp [State.memberAxes, State.axis, State.updFlight_flight_same]

@[simp] theorem loadPasses_queue (s : State) (f : FlightId) (q : List Segment) :
    loadPasses (s.updFlight f fun r => { r with queue := q }) f = loadPasses s f := by
  simp [loadPasses]

/-- A head that passes both checks is removed from the queue and becomes active (02, R31, R32, R34). -/
theorem startHead_taken {byCue : Bool} {f : FlightId} {s : State} {seg : Segment} {rest : List Segment}
    (queue : (s.flight f).queue = seg :: rest) (fits : TargetsFit s f seg)
    (loads : seg.loadCheck = true → LoadsFit s f) :
    startHead byCue f s = (activate f seg byCue (s.updFlight f fun r => { r with queue := rest }), .done) := by
  unfold startHead
  simp only [queue, memberAxes_queue, loadPasses_queue]
  rw [if_neg, if_neg]
  · cases h : seg.loadCheck
    · simp
    · simp [(loadPasses_iff s f).mpr (loads h)]
  · rw [← Bool.not_eq_true, not_not, targetsWithin_iff]; exact fits

end Sys2Proof.Machine
end

