-- ==== Sys2Proof/Laws/Every.lean ====
section
/-! SUPPORT. What an event sent to many flights does: HOLD-ALL and STOP ALL, the links' holds and trips in a free order, and the
restraint of the flights that one station claims. -/

namespace Sys2Proof.Machine

/-! ### Holds and trips of many flights (05, R84, R93; 09, R168) -/

/-- A hold request to each flight of a list without repeats. -/
theorem holdList (cause : HoldCause) (l : List FlightId) (nodup : l.Nodup) (s : State) :
    (∀ f, (l.foldl (fun t g => holdFlight g cause t) s).flight f =
      if f ∈ l then (s.flight f).afterHold cause else s.flight f) ∧
    OnlyMotionChanged s (l.foldl (fun t g => holdFlight g cause t) s) ∧
    (l.foldl (fun t g => holdFlight g cause t) s).axes = s.axes := by
  induction l generalizing s with
  | nil => exact ⟨by simp, rfl, rfl⟩
  | cons g l ih =>
    obtain ⟨flights, motion, axes⟩ := ih (List.nodup_cons.mp nodup).2 (holdFlight g cause s)
    refine ⟨fun f => ?_, (holdFlight_motion _ _ _).trans motion, by simpa using axes⟩
    simp only [List.foldl_cons]
    rw [flights]
    by_cases e : f = g
    · subst e; simp [(List.nodup_cons.mp nodup).1, holdFlight_flight_same]
    · simp [e, holdFlight_others g cause s f e]

/-- All that a hold request to every flight does (05, R84). -/
theorem holdEvery_spec (cause : HoldCause) (s : State) :
    (∀ f, (holdEvery cause s).flight f = (s.flight f).afterHold cause) ∧ OnlyMotionChanged s (holdEvery cause s) ∧
      (holdEvery cause s).axes = s.axes := by
  obtain ⟨flights, motion, axes⟩ := holdList cause _ allFlights_nodup s
  exact ⟨fun f => by simpa [mem_allFlights, holdEvery] using flights f, motion, axes⟩

/-- A trip request to each flight of a list without repeats. -/
theorem tripList (cause : TripCause) (l : List FlightId) (nodup : l.Nodup) (s : State) :
    (∀ f, (l.foldl (fun t g => tripFlight g cause t) s).flight f =
      if f ∈ l then (s.flight f).afterTrip cause else s.flight f) ∧
    OnlyMotionChanged s (l.foldl (fun t g => tripFlight g cause t) s) ∧
    ∀ n,
      ((∃ f ∈ l, (s.flight f).state.trips = true ∧ n ∈ (s.flight f).members) →
        (l.foldl (fun t g => tripFlight g cause t) s).axis n = (s.axis n).brakedDown) ∧
      ((¬∃ f ∈ l, (s.flight f).state.trips = true ∧ n ∈ (s.flight f).members) →
        (l.foldl (fun t g => tripFlight g cause t) s).axis n = s.axis n) := by
  induction l generalizing s with
  | nil => exact ⟨by simp, rfl, by simp⟩
  | cons g l ih =>
    obtain ⟨flights, motion, axes⟩ := ih (List.nodup_cons.mp nodup).2 (tripFlight g cause s)
    have hg := (List.nodup_cons.mp nodup).1
    have same : ∀ f ∈ l, (tripFlight g cause s).flight f = s.flight f :=
      fun f hf => tripFlight_others g cause s f (by rintro rfl; exact hg hf)
    refine ⟨fun f => ?_, (tripFlight_motion _ _ _).trans motion, fun n => ?_⟩
    · simp only [List.foldl_cons]
      rw [flights]
      by_cases e : f = g
      · subst e; simp [hg, tripFlight_flight_same]
      · simp [e, tripFlight_others g cause s f e]
    · simp only [List.foldl_cons]
      have later : (∃ f ∈ l, ((tripFlight g cause s).flight f).state.trips = true ∧
          n ∈ ((tripFlight g cause s).flight f).members) ↔
          ∃ f ∈ l, (s.flight f).state.trips = true ∧ n ∈ (s.flight f).members := by
        constructor <;> rintro ⟨f, hf, h⟩ <;> exact ⟨f, hf, by simpa [same f hf] using h⟩
      obtain ⟨hit, missed⟩ := axes n
      rw [later, tripFlight_axis] at hit missed
      constructor
      · rintro ⟨f, hf, h⟩
        by_cases hh : ∃ f ∈ l, (s.flight f).state.trips = true ∧ n ∈ (s.flight f).members
        · rw [hit hh]; split
          · exact brakedDown_idem _
          · rfl
        · rw [missed hh]
          rcases List.mem_cons.mp hf with rfl | hf
          · simp [h]
          · exact absurd ⟨f, hf, h⟩ hh
      · intro h
        rw [missed (fun ⟨f, hf, h'⟩ => h ⟨f, List.mem_cons_of_mem _ hf, h'⟩), if_neg]
        exact fun h' => h ⟨g, List.mem_cons_self, h'⟩

/-- All that a trip request to every flight does (05, R93). -/
theorem tripEvery_spec (cause : TripCause) (s : State) :
    (∀ f, (tripEvery cause s).flight f = (s.flight f).afterTrip cause) ∧ OnlyMotionChanged s (tripEvery cause s) ∧
    ∀ n,
      ((∃ f, (s.flight f).state.trips = true ∧ n ∈ (s.flight f).members) →
        (tripEvery cause s).axis n = (s.axis n).brakedDown) ∧
      ((¬∃ f, (s.flight f).state.trips = true ∧ n ∈ (s.flight f).members) → (tripEvery cause s).axis n = s.axis n) := by
  obtain ⟨flights, motion, axes⟩ := tripList cause _ allFlights_nodup s
  refine ⟨fun f => by simpa [mem_allFlights, tripEvery] using flights f, motion, fun n => ?_⟩
  simpa [mem_allFlights, tripEvery] using axes n

theorem anyOrder_map {α β : Type} (g : α → β) (fuel : Nat) (l : List α) (ix : Nat) :
    anyOrder fuel (l.map g) ix = (anyOrder fuel l ix).map g := by
  induction fuel generalizing l ix with
  | zero => rfl
  | succ n ih =>
    unfold anyOrder
    simp only [List.length_map, List.getElem?_map]
    split
    · rfl
    · cases l[Config.freePick ix % l.length]? with
      | none => rfl
      | some a =>
        simp only [Option.map_some, List.map_cons]
        rw [List.eraseIdx_map, ih]

/-- The holds of a HOLD_ALL link, in whatever order they are taken (09, R165, R168). -/
theorem sends_holdAll (i : LinkId) (s : State) :
    (∀ f, (takeInAnyOrder (sends i .holdAll) takeEffect s).flight f = (s.flight f).afterHold (.holdAllLink i)) ∧
      (takeInAnyOrder (sends i .holdAll) takeEffect s).links = s.links := by
  have order := anyOrder_perm (sends i .holdAll).length allFlights s.freeIndex
  obtain ⟨flights, motion, -⟩ := holdList (.holdAllLink i) _ (order.nodup_iff.mpr allFlights_nodup)
    { s with freeIndex := s.freeIndex + ((sends i .holdAll).length - 1) }
  have unfolded : takeInAnyOrder (sends i .holdAll) takeEffect s =
      (anyOrder (sends i .holdAll).length allFlights s.freeIndex).foldl (fun t g => holdFlight g (.holdAllLink i) t)
        { s with freeIndex := s.freeIndex + ((sends i .holdAll).length - 1) } := by
    unfold takeInAnyOrder
    simp only [sends, anyOrder_map, List.foldl_map, takeEffect]
  rw [unfolded]
  exact ⟨fun f => by rw [flights, if_pos (order.mem_iff.mpr (mem_allFlights f))]; rfl, motion.links⟩

/-- The trips of a TRIP_ALL link, in whatever order they are taken (09, R165, R168). -/
theorem sends_tripAll (i : LinkId) (s : State) :
    (∀ f, (takeInAnyOrder (sends i .tripAll) takeEffect s).flight f = (s.flight f).afterTrip (.linkTrip i)) ∧
      (takeInAnyOrder (sends i .tripAll) takeEffect s).links = s.links := by
  have order := anyOrder_perm (sends i .tripAll).length allFlights s.freeIndex
  obtain ⟨flights, motion, -⟩ := tripList (.linkTrip i) _ (order.nodup_iff.mpr allFlights_nodup)
    { s with freeIndex := s.freeIndex + ((sends i .tripAll).length - 1) }
  have unfolded : takeInAnyOrder (sends i .tripAll) takeEffect s =
      (anyOrder (sends i .tripAll).length allFlights s.freeIndex).foldl (fun t g => tripFlight g (.linkTrip i) t)
        { s with freeIndex := s.freeIndex + ((sends i .tripAll).length - 1) } := by
    unfold takeInAnyOrder
    simp only [sends, anyOrder_map, List.foldl_map, takeEffect]
  rw [unfolded]
  exact ⟨fun f => by rw [flights, if_pos (order.mem_iff.mpr (mem_allFlights f))]; rfl, motion.links⟩

/-! ### The restraint of a station's flights (06, R115, R118) -/

theorem restrainFlight_axis (f : FlightId) (cause : HoldCause) (s : State) (n : AxisId) :
    (restrainFlight f cause s).axis n =
      if (s.flight f).state = .arming ∧ n ∈ (s.flight f).members then (s.axis n).brakedDown else s.axis n := by
  unfold restrainFlight
  split <;> rename_i h
  · rw [abortArming_axis]
  all_goals simp [h]

theorem raiseState_port (f : FlightId) (s : State) (u : Station) :
    (raiseState f s).port u =
      { s.port u with flightNotices := updAt (s.port u).flightNotices f fun x => { x with state := true } } := by
  simp [raiseState, raiseFlight]

theorem restrainFlight_port (f : FlightId) (cause : HoldCause) (s : State) (u : Station) :
    (restrainFlight f cause s).port u = if (s.flight f).restraintMoves = true then (raiseState f s).port u else s.port u := by
  have same : ∀ t v : State, t.ports = v.ports → t.port u = v.port u := fun t v h => by unfold State.port; rw [h]
  unfold restrainFlight Flight.restraintMoves
  split <;> rename_i h <;> simp only [h, if_true, if_false, Bool.false_eq_true] <;>
    first
    | (apply same; unfold abortArming; simp only [h]; exact raiseState_ports_congr f rfl)
    | (apply same; unfold holdFlight; simp only [h]; exact raiseState_ports_congr f rfl)
    | (unfold holdFlight; simp only [h]; first | done | rfl)

/-- The restraint event to each flight of a list without repeats that the station claims. -/
theorem restrainList (st : Station) (cause : HoldCause) (l : List FlightId) (nodup : l.Nodup) (s : State) :
    let r := l.foldl (fun t f => if (t.flight f).claim = some st then restrainFlight f cause t else t) s
    let hit (n : AxisId) := ∃ f ∈ l, (s.flight f).claim = some st ∧ (s.flight f).state = .arming ∧ n ∈ (s.flight f).members
    (∀ f, r.flight f = if f ∈ l ∧ (s.flight f).claim = some st then (s.flight f).afterRestraint cause else s.flight f) ∧
    OnlyMotionChanged s r ∧ (∀ n, (hit n → r.axis n = (s.axis n).brakedDown) ∧ (¬hit n → r.axis n = s.axis n)) ∧
    ∀ u, r.port u = (s.port u).stateRaised fun f =>
      decide (f ∈ l) && decide ((s.flight f).claim = some st) && (s.flight f).restraintMoves := by
  induction l generalizing s with
  | nil =>
    refine ⟨by simp, rfl, by simp, fun u => ?_⟩
    simp only [List.foldl_nil, Port.stateRaised, List.not_mem_nil, decide_false, Bool.false_and]
    have : mapAt (s.port u).flightNotices (fun f x => if false = true then { x with state := true } else x) =
        (s.port u).flightNotices := by
      apply vector_ext_fin; intro i; rw [getElem_mapAt]; rfl
    rw [this]
  | cons g l ih =>
    have hg := (List.nodup_cons.mp nodup).1
    intro r
    by_cases hc : (s.flight g).claim = some st
    · have hr : r = l.foldl (fun t f => if (t.flight f).claim = some st then restrainFlight f cause t else t)
          (restrainFlight g cause s) := by
        simp [r, hc]
      obtain ⟨flights, motion, axes, ports⟩ := ih (List.nodup_cons.mp nodup).2 (restrainFlight g cause s)
      rw [hr]
      have same : ∀ f, f ≠ g → (restrainFlight g cause s).flight f = s.flight f := restrainFlight_others g cause s
      have sameL : ∀ f ∈ l, (restrainFlight g cause s).flight f = s.flight f :=
        fun f hf => same f (by rintro rfl; exact hg hf)
      refine ⟨fun f => ?_, (restrainFlight_motion _ _ _).trans motion, fun n => ?_, fun u => ?_⟩
      · rw [flights]
        by_cases e : f = g
        · subst e; simp [hg, restrainFlight_flight_same, hc]
        · simp [e, same f e]
      · obtain ⟨braked, kept⟩ := axes n
        have later : (∃ f ∈ l, ((restrainFlight g cause s).flight f).claim = some st ∧
            ((restrainFlight g cause s).flight f).state = .arming ∧ n ∈ ((restrainFlight g cause s).flight f).members) ↔
            ∃ f ∈ l, (s.flight f).claim = some st ∧ (s.flight f).state = .arming ∧ n ∈ (s.flight f).members := by
          constructor <;> rintro ⟨f, hf, h⟩ <;> exact ⟨f, hf, by simpa [sameL f hf] using h⟩
        beta_reduce at braked kept
        rw [later, restrainFlight_axis] at braked kept
        constructor
        · rintro ⟨f, hf, h⟩
          by_cases hh : ∃ f ∈ l, (s.flight f).claim = some st ∧ (s.flight f).state = .arming ∧ n ∈ (s.flight f).members
          · rw [braked hh]; split
            · exact brakedDown_idem _
            · rfl
          · rw [kept hh]
            rcases List.mem_cons.mp hf with rfl | hf
            · simp [h.2]
            · exact absurd ⟨f, hf, h⟩ hh
        · intro h
          rw [kept (fun ⟨f, hf, h'⟩ => h ⟨f, List.mem_cons_of_mem _ hf, h'⟩), if_neg]
          exact fun h' => h ⟨g, List.mem_cons_self, hc, h'⟩
      · rw [ports, restrainFlight_port, raiseState_port]
        simp only [Port.stateRaised]
        congr 1
        any_goals (split <;> rfl)
        apply vector_ext_fin
        intro i
        rw [getElem_mapAt, getElem_mapAt]
        by_cases e : i = g
        · subst e
          by_cases hm : (s.flight i).restraintMoves = true
          · simp only [hg, hc, hm, if_true]; rw [getElem_updAt]; simp
          · simp [hg, hc, hm]
        · simp only [same i e]
          by_cases hm : (s.flight g).restraintMoves = true
          · simp only [hm, if_true]; rw [getElem_updAt]; simp [e]
          · simp [hm, e]
    · have hr : r = l.foldl (fun t f => if (t.flight f).claim = some st then restrainFlight f cause t else t) s := by
        simp [r, hc]
      obtain ⟨flights, motion, axes, ports⟩ := ih (List.nodup_cons.mp nodup).2 s
      rw [hr]
      refine ⟨fun f => ?_, motion, fun n => ?_, fun u => ?_⟩
      · rw [flights]
        by_cases e : f = g
        · subst e; simp [hc]
        · simp [e]
      · simpa [hc] using axes n
      · rw [ports]
        congr 1
        funext f
        by_cases e : f = g
        · subst e; simp [hc]
        · simp [e]

/-- All that an enable loss or a silence does to a station's flights (06, R115, R118). -/
theorem restrainClaimed_spec (st : Station) (cause : HoldCause) (s : State) :
    RestrainedBy st cause s (restrainClaimed st cause s) := by
  obtain ⟨flights, motion, axes, ports⟩ := restrainList st cause _ allFlights_nodup s
  refine ⟨fun f => ?_, ?_, fun n h => ?_, fun u => ?_, motion⟩
  · simpa [mem_allFlights, restrainClaimed] using flights f
  · rintro n ⟨f, h⟩
    exact (axes n).1 ⟨f, mem_allFlights f, h⟩
  · exact (axes n).2 fun ⟨f, _, h'⟩ => h ⟨f, h'⟩
  · simpa [mem_allFlights, restrainClaimed] using ports u

/-- All that computing a station's enable again does (06, R113 to R115). -/
theorem recomputeEnable_spec (u : Station) (s : State) : EnableComputed u s (recomputeEnable u s) := by
  have unfolded : recomputeEnable u s = if (s.enables.get u && !enableOf s u) = true then
      restrainClaimed u .enableLost (s.setEnable u (enableOf s u)) else s.setEnable u (enableOf s u) := rfl
  have motion := (restrainClaimed_spec u .enableLost (s.setEnable u (enableOf s u))).rest
  have enables : (recomputeEnable u s).enables = (s.setEnable u (enableOf s u)).enables := by
    rw [unfolded]; split
    · exact motion.enables
    · rfl
  have stored : (recomputeEnable u s).enables.get u = enableOf s u := by rw [enables]; simp [State.setEnable]
  refine ⟨by rw [stored, enableOf_iff], fun w hw => ?_, ?_, fun before after => ?_, fun h => ?_⟩
  · rw [enables]; simp [State.setEnable, hw]
  · rw [unfolded]; split
    · exact motion.links
    · rfl
  · rw [stored] at after
    rw [unfolded]
    simpa [before, after] using restrainClaimed_spec u .enableLost (s.setEnable u false)
  · rw [stored] at h ⊢
    rw [unfolded, if_neg]
    rcases h with h | h <;> simp [h]

end Sys2Proof.Machine
end

