-- ==== Sys2Proof/WellFormed.lean ====
section
/-! DEFINITION. Which commands can occur at all. Every operand is already at its width on the line, so two checks remain:
a BIND's axis list fits a frame, and UNKNOWN_KIND names a KIND outside the catalogue. -/

namespace Sys2Proof

/-- The most axis bytes a BIND frame can carry: LENGTH is at most 200 and counts KIND and the flight byte (10, section 10.2). -/
def maxBindAxes : Nat := 198

/-- A command that can be sent or can happen (10, section 10.2, R177). -/
def Instr.wf : Instr → Bool
  | .bind _ _ axes => decide (axes.length ≤ maxBindAxes)
  | .unknownKind _ kind => !isRequestKind kind
  | .resetnAssert | .resetEnd | .claim .. | .release .. | .unbind .. | .configureAxis .. | .setFlightLimits .. => true
  | .arm .. | .go .. | .resume .. | .cancel .. | .park .. | .resetFlight .. | .openCue .. | .closeCue .. => true
  | .hold .. | .holdAll .. | .stop .. | .append .. | .flush .. | .setLink .. | .clearLink .. | .setSlot .. => true
  | .scan .. | .inject .. | .status .. | .readFlight .. | .readAxis .. | .readSlots .. | .readLines .. => true
  | .byteReceived .. | .gap .. | .replySent .. | .stepExpiry | .dwellExpiry .. | .brakeTimeout .. => true
  | .silence .. | .sndrPhaseExpiry | .exchangeStart | .heldLine | .writeComplete | .readComplete .. => true
  | .answerHoldTimeout | .missedExchange | .rawLevelChange .. | .filterAccept .. | .lineSettle .. => true
  | .conversionComplete .. => true

end Sys2Proof
end

