-- ==== Sys2Proof/Tests/Slice0.lean ====
section
/-! SUPPORT. Tests: expected results taken from the manual's worked examples and tables, and for every statement of
Certificates/Slice0/Obligations.lean a state and operands that meet its hypotheses together. -/

namespace Sys2Proof.Tests

set_option Elab.async false

open Sys2Proof.Machine

/-! ### Small states -/

/-- The state a command leaves. -/
def after (c : Instr) (s : State) : State :=
  match exec c s with
  | .next t => t
  | .fault _ | .refused _ => s

/-- The result code byte of the reply in progress on a port. -/
def code (st : Station) (s : State) : Option Byte :=
  match (s.port st).tx with
  | .idle => none
  | .sending bytes => bytes[3]?

/-- Parameters with the axis limits of the nine-step move (03, section 3.7). -/
def params (address : BitVec 7) : AxisParams :=
  { address := address, lower := 0, upper := 60000000, vmax := 100, amax := 1024, window := 300, slot := none }

/-- A member of FL0 at a position. -/
def rope (x : AxisState) (address : BitVec 7) (pos : Int) : Axis :=
  { Axis.reset with state := x, params := some (params address), setPoint := pos, measured := some pos, flight := some 0 }

/-- FL0 with the ropes AX0 and AX1 of the nine-step move, claimed by Station A, whose enable is true. -/
def rig (x : FlightState) (y : AxisState) : State :=
  driveOutputs (((({ State.reset with enables := { a := true, b := false, c := false } } : State).updFlight 0 fun r =>
      { r with state := x, members := [0, 1], claim := some .a }).updAxis 0 fun _ => rope y 0x20 1000000).updAxis 1 fun _ =>
        rope y 0x21 2000000)

/-- The segment of the nine-step move (03, section 3.7), with a start kind. -/
def bounce (k : StartKind) : Segment :=
  { tag := 7, targets := #v[some 1000020, some 1999985, none, none], vmax := 48, aUp := 16, aDn := 16, dwell := 0,
    start := k, recycle := false, loadCheck := false }

/-- FL0 READY with one record waiting. -/
def ready (k : StartKind) : State := (rig .ready .following).updFlight 0 fun r => { r with queue := [bounce k] }

/-- FL0 MOVING on the nine-step move, at its start. -/
def moving : State := after (.go .a 0) (ready .go)

def parked : State := rig .parked .braked
def arming : State := after (.arm .a 0) parked
def dwelling : State := (rig .dwell .following).updFlight 0 fun r => { r with dwell := some 1 }
def held : State := rig .held .following
def tripped : State := after (.stop .c 0) parked

/-- A number of step expiries. -/
def expiries : Nat → State → State
  | 0, s => s
  | n + 1, s => expiries n (after .stepExpiry s)

/-- The stopping flight of the second hold example: eight expiries of the nine-step move, then a hold (05, section 5.3). -/
def stopping : State :=
  after (.hold .c 0) (expiries 8 (after (.go .a 0) (after (.setFlightLimits .a 0 16 0xF001 0x0FFF) (ready .go))))

/-! ### Well-formedness, frames and requests -/

/-- LENGTH is at most 200, so a BIND frame holds at most 198 axis bytes (10, section 10.2). -/
theorem test_wf_bind : Instr.wf (.bind .a 0 (List.replicate 198 0)) = true ∧
    Instr.wf (.bind .a 0 (List.replicate 199 0)) = false := by decide +kernel

/-- 0x40 is STATUS and 0x45 is in no catalogue (10, R179). -/
theorem test_wf_unknownKind : Instr.wf (.unknownKind .a 0x40) = false ∧ Instr.wf (.unknownKind .a 0x45) = true := by decide

/-- "123456789" gives 0x29B1 (10, R173). -/
theorem test_crc : crc16 [0x31, 0x32, 0x33, 0x34, 0x35, 0x36, 0x37, 0x38, 0x39] = 0x29B1#16 := by decide +kernel

/-- The STATUS frame of 10, section 10.7. -/
theorem test_statusFrame : frameBytes kindStatus [] = [0xA5, 0x01, 0x40, 0x66, 0xFA] := by decide +kernel

/-- The write of 1,000,020 with brake release set has the check byte 0xDA (07, R126). -/
theorem test_checkByte : checkByte [0x00, 0x0F, 0x42, 0x54, 0x80] = 0xDA#8 := by decide +kernel

/-- CLAIM of FL3 with TAKE from Station B: KIND 0x01, flight, TAKE (10, R179). -/
theorem test_decode_claim : decodeRequest .b 0x01 [3, 1] = .request (.claim .b 3 1) := by decide

/-- SET-FLIGHT-LIMITS of FL2: KIND 0x0B, hold deceleration 64, window −4095 to +4095 (10, R179). -/
theorem test_decode_limits :
    decodeRequest .a 0x0B [2, 0x00, 0x40, 0xF0, 0x01, 0x0F, 0xFF] = .request (.setFlightLimits .a 2 64 0xF001 0x0FFF) := by
  decide +kernel

/-- A BODY of another length, and a KIND outside the catalogue (10, R177). -/
theorem test_decode_refused : decodeRequest .a 0x10 [0, 0] = .badLength ∧ decodeRequest .a 0x03 [] = .unknownKind := by decide

/-- The five bytes of a STATUS frame end in a reply with DONE (10, R174, R176, R182). -/
theorem test_bytes_status :
    code .b ([0xA5, 0x01, 0x40, 0x66, 0xFA].foldl (fun s b => after (.byteReceived .b b true) s) State.reset) = some 0 := by
  decide +kernel

/-! ### The path examples -/

/-- The clamp: v_eff 40, a_up_eff, a_dn_eff and a_hold_eff 10, L 320 (03, section 3.5). -/
theorem test_clamp :
    let m (v a : Nat) : Axis := { rope .following 0x20 0 with params := some { params 0x20 with vmax := v, amax := a } }
    let act := activeOf [m 60 12, m 30 8] 64 { bounce .go with targets := #v[some 20, some (-15), none, none] } false
    (act.pathLen, act.vEff, act.aUpEff, act.aDnEff, act.aHoldEff) = (320, 40, 10, 10, 10) := by decide +kernel

/-- The braking distances under 16 (03, section 3.6). -/
theorem test_braking : [0, 16, 32, 48, 64].map (brakingDistance 16) = [0, 0, 16, 48, 96] := by decide

/-- The nine-step move: positions and AX1's set-points after expiries 1, 4, 7, 8 (03, section 3.7). -/
theorem test_nineSteps :
    [1, 4, 7, 8].map (fun k => (((expiries k moving).flight 0).active.map (·.pos), ((expiries k moving).axis 1).setPoint)) =
      [(some 16, 2000000), (some 144, 1999994), (some 272, 1999988), (some 304, 1999986)] := by decide +kernel

/-- The ninth expiry completes the move at its targets, and the flight is READY (03, section 3.7; 02, R35, R39). -/
theorem test_nineSteps_done :
    ((expiries 9 moving).axis 0).setPoint = 1000020 ∧ ((expiries 9 moving).axis 1).setPoint = 1999985 ∧
      ((expiries 9 moving).flight 0).state = .ready ∧ ((expiries 9 moving).flight 0).active = none := by decide +kernel

/-- Creep: 32 and then 16 over a path of 48; 16 over a path of 16 (03, section 3.7). -/
theorem test_creep :
    let act : Active := { seg := bounce .go, starts := [], pathLen := 48, pos := 0, speed := 0, vEff := 48, aUpEff := 32,
                          aDnEff := 32, aHoldEff := 32, aStop := none, byCue := false }
    movingSpeed act 48 = 32 ∧ movingSpeed { act with speed := 32 } 16 = 16 ∧
      movingSpeed { act with vEff := 100, aUpEff := 64, aDnEff := 64 } 16 = 16 := by decide

/-- A hold after the fourth expiry stops with a_stop 64 and rests at s = 144 one expiry later (03, section 3.8). -/
theorem test_hold_nineSteps :
    let s := after (.hold .c 0) (expiries 4 moving)
    (s.flight 0).active.bind (·.aStop) = some 64 ∧ ((after .stepExpiry s).flight 0).state = .held ∧
      ((after .stepExpiry s).flight 0).active.map (fun a => (a.pos, a.aStop)) = some (144, none) := by decide +kernel

/-- A hold whose braking distance is the remaining path lands on the target (05, section 5.3). -/
theorem test_hold_landing :
    (stopping.flight 0).active.bind (·.aStop) = some 16 ∧ ((after .stepExpiry stopping).flight 0).state = .held ∧
      ((after .stepExpiry stopping).axis 0).setPoint = 1000020 := by decide +kernel

/-- Set-points along −25 of 640: −3 at s = 100 and −24 at s = 624 (04, section 4.1). -/
theorem test_interpolation :
    let act : Active := { seg := { bounce .go with targets := #v[some 5000040, some 5009975, none, none] },
                          starts := [5000000, 5010000, 4990000], pathLen := 640, pos := 100, speed := 0, vEff := 1,
                          aUpEff := 1, aDnEff := 1, aHoldEff := 1, aStop := none, byCue := false }
    (setPointAt act 0, setPointAt act 1, setPointAt act 2) = (5000006, 5009997, 4990000) ∧
      setPointAt { act with pos := 624 } 1 = 5009976 := by decide +kernel

/-! ### Commands, one step each -/

/-- CLAIM of another's MOVING flight: CLAIMED_ELSEWHERE without TAKE, BAD_STATE with it (06, R107). -/
theorem test_claim : code .b (after (.claim .b 0 0) moving) = some 4 ∧ code .b (after (.claim .b 0 1) moving) = some 5 := by
  decide +kernel

/-- A TAKE of a HELD flight passes the claim on (06, R107). -/
theorem test_claim_take : ((after (.claim .b 0 1) held).flight 0).claim = some .b := by decide +kernel

/-- RELEASE of a TRIPPED flight, and BAD_STATE in READY (06, R109). -/
theorem test_release : ((after (.release .a 0) tripped).flight 0).claim = none ∧
    code .a (after (.release .a 0) (ready .go)) = some 5 := by decide +kernel

/-- BIND swaps the member slots (01, R8); an UNCONFIGURED axis is AXIS_UNAVAILABLE (01, R7). -/
theorem test_bind : ((after (.bind .a 0 [1, 0]) parked).flight 0).members = [1, 0] ∧
    code .a (after (.bind .a 0 [0, 2]) parked) = some 12 := by decide +kernel

/-- UNBIND frees the flight and keeps the claim (01, R9). -/
theorem test_unbind : ((after (.unbind .a 0) parked).flight 0).state = .free ∧
    ((after (.unbind .a 0) parked).flight 0).claim = some .a ∧ ((after (.unbind .a 0) parked).axis 1).flight = none := by
  decide +kernel

/-- CONFIGURE-AXIS of a fresh axis makes it BRAKED (01, R6); AX0's address is ADDRESS_IN_USE (01, R5). -/
theorem test_configureAxis :
    ((after (.configureAxis .a 11 0x77 0 1 1 1 1 0xFF) parked).axis 11).state = .braked ∧
      code .a (after (.configureAxis .a 11 0x20 0 1 1 1 1 0xFF) parked) = some 14 := by decide +kernel

/-- SET-FLIGHT-LIMITS with the minimum above the maximum is BAD_PARAMETER (01, R20). -/
theorem test_setFlightLimits : code .a (after (.setFlightLimits .a 0 1 0x0001 0x0000) parked) = some 2 ∧
    ((after (.setFlightLimits .a 0 1024 0xF001 0xF001) parked).flight 0).loadMax = -4095 := by decide +kernel

/-- ARM releases the brakes and starts the timer at 100 (01, R13). -/
theorem test_arm : (arming.flight 0).armTimer = some 100 ∧ arming.brake 1 = true ∧ (arming.axis 1).state = .releasing ∧
    arming.sounder = .steady := by decide +kernel

/-- A GO without a record is QUEUE_EMPTY (02, R29), and one that starts sets queue-low and LOW (02, R27). -/
theorem test_go : code .a (after (.go .a 0) (rig .ready .following)) = some 9 ∧ (moving.flight 0).queueLow = true ∧
    ((moving.port .c).flightNotices[(0 : FlightId)]).low = true := by decide +kernel

/-- RESUME of a HELD flight with neither part goes READY (05, R91). -/
theorem test_resume : ((after (.resume .a 0) held).flight 0).state = .ready := by decide +kernel

/-- CANCEL is BAD_STATE away from HELD (05, R92). -/
theorem test_cancel : ((after (.cancel .a 0) held).flight 0).state = .ready ∧
    code .a (after (.cancel .a 0) moving) = some 5 := by decide +kernel

/-- PARK brakes the members (01, R19). -/
theorem test_park : ((after (.park .a 0) held).flight 0).state = .parked ∧ ((after (.park .a 0) held).axis 0).state = .braked ∧
    (after (.park .a 0) held).brake 0 = false := by decide +kernel

/-- RESET-FLIGHT takes a TRIPPED flight to PARKED without its cause (05, R100). -/
theorem test_resetFlight : ((after (.resetFlight .a 0) tripped).flight 0).state = .parked ∧
    ((after (.resetFlight .a 0) tripped).flight 0).tripCause = none ∧ (after (.resetFlight .a 0) tripped).sounder = .off := by
  decide +kernel

/-- The cue gate (02, R28). -/
theorem test_cueGates : ((after (.openCue .a 0) parked).flight 0).cueGate = .opened ∧
    ((after (.closeCue .a 0) (after (.openCue .a 0) parked)).flight 0).cueGate = .closed := by decide +kernel

/-- HOLD from a station that claims nothing (05, R83), and HOLD-ALL of a dwell (05, R84). -/
theorem test_hold : ((after (.hold .c 0) moving).flight 0).holdCause = some (.stationHold .c) ∧
    ((after (.holdAll .b) dwelling).flight 0).holdCause = some (.holdAllStation .b) := by decide +kernel

/-- STOP records the first cause and then further trips (05, R97); 0xFF stops all (10, R179). -/
theorem test_stop : (tripped.flight 0).tripCause = some (.stationStop .c) ∧
    ((after (.stop .b 0) tripped).flight 0).tripCause = some (.stationStop .c) ∧
    ((after (.stop .b 0) tripped).flight 0).furtherTrips = true ∧
    ((after (.stop .b 0xFF) moving).flight 0).state = .tripped := by decide +kernel

/-- APPEND of a target for a slot without a member is BAD_PARAMETER, of one above soft upper OUT_OF_LIMITS (02, R24). -/
theorem test_append :
    code .a (after (.append .a 0 1 4 0 0 0 0 1 1 1 0 0 0) parked) = some 2 ∧
      code .a (after (.append .a 0 1 1 60000001 0 0 0 1 1 1 0 0 0) parked) = some 10 := by decide +kernel

/-- The record at the tail, with a negative target refused as out of limits only where it is present (02, R24, R25). -/
theorem test_append_tail :
    ((after (.append .a 0 5 2 0xFFFFFFFF 60000000 0 0 192000 1024 1 65535 2 3) parked).flight 0).queue =
      [{ tag := 5, targets := #v[none, some 60000000, none, none], vmax := 192000, aUp := 1024, aDn := 1, dwell := 65535,
         start := .follow, recycle := true, loadCheck := true }] := by decide +kernel

/-- FLUSH (02, R26). -/
theorem test_flush : ((after (.flush .a 0) (ready .go)).flight 0).queue = [] := by decide +kernel

/-- A link as 09, section 9.2 writes it: SNS0 LOW TRIP_ALL, and an edge condition refused for ENABLE_STATION. -/
theorem test_setLink :
    (after (.setLink .a 6 0x00 0x03 0x03 0xFF) parked).link 6 = some { source := .line 0, cond := .low, action := .tripAll } ∧
      code .a (after (.setLink .a 6 0x00 0x00 0x05 0x00) parked) = some 2 := by decide +kernel

/-- CLEAR-LINK (09, R164). -/
theorem test_clearLink : (after (.clearLink .a 6) (after (.setLink .a 6 0x10 0x06 0x02 0x00) parked)).link 6 = none := by
  decide +kernel

/-- A slot with the settings of 08, section 8.7: tare 400, high 3,000, low −200, slack 150. -/
def slotted : State := after (.setSlot .c 2 2 1 400 3000 0xFF38 150) (rig .ready .following)

/-- Raw 100 gives tared −300, UNDER; raw 5,000 is stored as 4,095, tared 3,695, OVER (08, section 8.7). -/
theorem test_inject :
    ((after (.inject .c 2 100) slotted).slot 2).tared = -300 ∧ ((after (.inject .c 2 100) slotted).slot 2).isUnder = true ∧
      ((after (.inject .c 2 5000) slotted).slot 2).tared = 3695 ∧ ((after (.inject .c 2 5000) slotted).slot 2).isOver = true := by
  decide +kernel

/-- A fall from 200 to 100 through the slack level 150 trips FL0; the first valid result does not (08, section 8.7). -/
theorem test_slack :
    let linked := after (.setLink .c 3 0x12 0x06 0x02 0x00) slotted
    ((after (.inject .c 2 500) linked).flight 0).state = .ready ∧
      ((after (.inject .c 2 500) (after (.inject .c 2 600) linked)).flight 0).state = .tripped := by decide +kernel

/-- A scan of an empty table in CONTINUOUS ends at once (08, R146), and SET-SLOT is refused while it waits (08, R154). -/
theorem test_scan : (after (.scan .a 2) State.reset).scanState = .stopped ∧
    code .a (after (.setSlot .a 0 0 1 0 0 0 0) (after (.scan .a 3) State.reset)) = some 15 := by decide +kernel

/-- A conversion of slot 0 in ONCE ends the scan when slot 1 is not enabled (08, R144, R146). -/
theorem test_conversion :
    let scanning := after (.scan .a 1) (after (.setSlot .a 0 5 1 0 0 0 0) State.reset)
    scanning.scanState = .scanning 0 ∧ (after (.conversionComplete 77) scanning).scanState = .stopped ∧
      ((after (.conversionComplete 77) scanning).slot 0).raw = 77 := by decide +kernel

/-- STATUS reports DONE and STATE of FL0 and clears them on its own port only (10, R181). -/
theorem test_status :
    let s := after (.status .a) (expiries 9 moving)
    ((s.port .a).flightNotices[(0 : FlightId)]).done = false ∧ ((s.port .b).flightNotices[(0 : FlightId)]).done = true := by
  decide +kernel

/-- A SILENT station that asks for STATUS is heard: it reports itself ACTIVE (06, R119; 10, R182). -/
theorem test_status_heard :
    let s := after (.silence .a) (State.reset.updPort .a fun p => { p with silence := 249 })
    s.silents.a = true ∧ (after (.status .a) s).silents.a = false ∧
      (match ((after (.status .a) s).port .a).tx with
       | .sending bytes => bytes[32]?
       | .idle => none) = some 0 := by decide +kernel

/-- A FREE flight without a cause sends its hold and trip cause, with their qualifiers, as 0 (10, R183). -/
theorem test_absentCauses :
    (match ((after (.readFlight .a 0) State.reset).port .a).tx with
     | .sending bytes => (bytes.drop 17).take 4
     | .idle => []) = [0, 0, 0, 0] := by decide +kernel

/-- The lengths of the five read replies: LENGTH 41, 129, 42, 118, 130 (10, section 10.6). -/
theorem test_readLengths :
    ([.status .a, .readFlight .a 0, .readAxis .a 0, .readSlots .a, .readLines .a none].map fun c =>
      match ((after c parked).port .a).tx with
      | .sending bytes => bytes[1]?
      | .idle => none) = [some 41, some 129, some 42, some 118, some 130] := by decide +kernel

/-- A reply to an unknown KIND carries KIND plus 0x80 and UNKNOWN_KIND (10, R178). -/
theorem test_unknownKind : ((after (.unknownKind .c 0xF0) State.reset).port .c).tx =
    .sending (frameBytes 0x70 [0x01]) := by decide +kernel

/-- GAP discards a frame in assembly (10, R175). -/
theorem test_gap :
    let s := after (.gap .a) (after (.byteReceived .a 0xA5 true) State.reset)
    (s.port .a).errors.gap = true ∧ (s.port .a).stage = .hunting ∧ (s.port .a).linkNotice = true ∧
      (s.port .b).linkNotice = false := by decide +kernel

/-- The end of a reply (10, R176). -/
theorem test_replySent : ((after (.replySent .a) (after (.status .a) State.reset)).port .a).tx = .idle := by decide +kernel

/-- The hundredth expiry with a member RELEASING trips on BRAKE_TIMEOUT naming slot 0's axis (01, R15). -/
theorem test_brakeTimeout :
    let s := arming.updFlight 0 fun r => { r with armTimer := some 1 }
    ((after .stepExpiry s).flight 0).tripCause = some (.brakeTimeout 0) ∧
      ((after (.brakeTimeout 0) s).flight 0).tripCause = some (.brakeTimeout 0) ∧
      ((after .stepExpiry arming).flight 0).armTimer = some 99 := by decide +kernel

/-- A dwell that runs out (02, R38). -/
theorem test_dwellExpiry : ((after (.dwellExpiry 0) dwelling).flight 0).state = .ready ∧
    ((after .stepExpiry dwelling).flight 0).state = .ready := by decide +kernel

/-- Station A's silence counter at 249, so that A falls SILENT at the next expiry. -/
def fallingSilent (s : State) : State := s.updPort .a fun p => { p with silence := 249 }

/-- FL0 MOVING with Station A's silence counter at 249. -/
def quiet : State := fallingSilent moving

/-- Silence holds a MOVING flight (06, R118). -/
theorem test_silence : ((after (.silence .a) quiet).flight 0).holdCause = some .stationSilent ∧
    (after (.silence .a) quiet).silents.a = true := by decide +kernel

/-- A PULSED phase ends at its 125th expiry (09, R170). -/
theorem test_sounder :
    let s := { tripped with sounder := .pulsed true 124 }
    (after .sndrPhaseExpiry s).sounder = .pulsed false 0 ∧ (after .stepExpiry s).sounder = .pulsed false 0 := by decide +kernel

/-- A round's first write: address 0x20 with direction 0, set-point 1,000,000, nothing in the control byte (07, R127, R128). -/
theorem test_exchangeStart :
    (after .exchangeStart (after .stepExpiry parked)).exchange.map (·.bytes) =
      some [0x40, 0x00, 0x0F, 0x42, 0x40, 0x00, checkByte [0x00, 0x0F, 0x42, 0x40, 0x00]] := by decide +kernel

/-- A write in progress, and the read behind it. -/
def writing : State := after .exchangeStart (after .stepExpiry arming)
def reading : State := after .exchangeStart (after .writeComplete writing)

/-- A completed write records what it carried (07, R127); a read of a released brake confirms it (01, R14). -/
theorem test_writeComplete : ((after .writeComplete writing).axis 0).lastWrite = some { setPoint := 1000000, release := true } := by
  decide +kernel

/-- BRAKE_OPEN confirms a RELEASING member (01, R14); FAULT in the status faults it (04, R70). -/
theorem test_readComplete :
    let read (status : Byte) := after (.readComplete 1000000 status (checkByte [0x00, 0x0F, 0x42, 0x40, status])) reading
    ((read 0x20).axis 0).state = .following ∧ ((read 0x40).axis 0).faultCause = some .driveFault ∧
      ((read 0x40).flight 0).tripCause = some (.axisFault .driveFault 0) := by decide +kernel

/-- Missed exchanges of each kind count in the missed streak (07, R129, R131 to R133). -/
theorem test_misses : ((after .missedExchange writing).axis 0).missedStreak = 1 ∧
    ((after .missedExchange writing).axis 0).writeStreak = 1 ∧ ((after .answerHoldTimeout reading).axis 0).missedStreak = 1 ∧
    ((after .heldLine (after .stepExpiry arming)).axis 0).missedStreak = 1 := by decide +kernel

/-- The third miss faults the axis with DRIVE_SILENT (07, R133). -/
theorem test_driveSilent :
    let s := writing.updAxis 0 fun a => { a with missedStreak := 2 }
    ((after .missedExchange s).axis 0).faultCause = some .driveSilent ∧ (after .missedExchange s).faultLine = true := by
  decide +kernel

/-- A level hold that an event makes true refuses the cue of that event; an edge hold leaves it stopped or started (02, R30; 09,
R167, R168). -/
theorem test_cue_beside_level :
    let both (cond : Condition) := (((after (.openCue .a 0) (ready .cue)).setLink 4
      (some { source := .line 3, cond := .rise, action := .cueFlight 0 })).setLink 5
      (some { source := .line 3, cond := cond, action := .holdFlight 0 })).updLine 3 fun l => { l with filtered := some .high }
    (cueFlight 0 (both .high)).flight 0 = (both .high).flight 0 ∧ ((cueFlight 0 (both .rise)).flight 0).state = .moving := by
  decide +kernel

/-- The trip behind a faulting read: a STOP, a link's, an arming timer's, and none (04, R78). -/
theorem test_tripBehind :
    let s := (((arming.setLink 0 (some { source := .line 3, cond := .rise, action := .tripAll })).updLine 3
      fun l => { l with filtered := some .low, pending := some .high }).updFlight 0 fun r => { r with armTimer := some 1 })
    let behind (c : Instr) := tripBehind 0 { s with pending := [c] }
    behind (.stop .b 0xFF) = some (.stationStop .b) ∧ behind (.brakeTimeout 0) = some (.brakeTimeout 0) ∧
      behind (.status .b) = none ∧ tripBehind 0 s = none := by decide +kernel

/-- An unsettled line settles with no edge and no flag, a settled one is accepted with both (09, R158, R159, R161). -/
def settled : State := after (.lineSettle 0) parked
def changing : State := after (.rawLevelChange 0 .high) settled

theorem test_lines : (settled.line 0).filtered = some .low ∧ (settled.port .a).linesNotice = false ∧
    (changing.line 0).pending = some .high ∧ ((after (.filterAccept 0) changing).line 0).filtered = some .high ∧
    ((after (.filterAccept 0) changing).port .b).change[(0 : LineId)] = true := by decide +kernel

/-- While RESETN is asserted no byte is received (10, R172), and the end of reset starts the step timer (03, R42). -/
theorem test_reset :
    let down := after .resetnAssert moving
    (after (.byteReceived .a 0xA5 true) down).port .a = Port.reset ∧ down.timerRunning = false ∧
      (after .resetEnd down).timerRunning = true ∧ (down.flight 0) = Flight.reset := by decide +kernel

/-! ### Witnesses: for each statement a state and operands that meet its hypotheses -/

/-- A reset part with RESETN still asserted. -/
def down : State := after .resetnAssert moving

theorem witness_StepTakesTheFront : State.reset.pending = [] := rfl

theorem witness_ResetRules :
    (down.resetAsserted = true ∧ down.timerRunning = false ∧ (Instr.stepExpiry ≠ .resetnAssert) ∧
      Instr.stepExpiry ≠ .resetEnd ∧ (Instr.rawLevelChange 15 .high ≠ .resetEnd)) ∧
      ∀ n, (down.line n).filterOn = true := by decide +kernel

/-! #### Invariants -/

theorem flies_iff (x : FlightState) :
    x.flies ↔ decide (x = .arming ∨ x = .ready ∨ x = .moving ∨ x = .dwell ∨ x = .stopping ∨ x = .held) = true := by
  simp [FlightState.flies]

/-- A flight's state lets its brakes be released. -/
def isFlying (x : FlightState) : Bool :=
  decide (x = .arming ∨ x = .ready ∨ x = .moving ∨ x = .dwell ∨ x = .stopping ∨ x = .held)

theorem addressesApart {s : State}
    (h : ∀ m n, (s.axis m).params = none ∨ (s.axis m).params.map (·.address) ≠ (s.axis n).params.map (·.address) ∨ m = n) :
    ∀ m n p q, (s.axis m).params = some p → (s.axis n).params = some q → p.address = q.address → m = n := by
  intro m n p q hp hq e
  rcases h m n with h | h | h
  · simp [hp] at h
  · simp [hp, hq, e] at h
  · exact h

/-- What a sound rig is, from what can be decided. -/
theorem rigSound_of {s : State}
    (flights : ∀ f, ((s.flight f).members.Nodup ∧ (s.flight f).members.length ≤ 4) ∧
      ((s.flight f).state = .free ↔ (s.flight f).members = []) ∧ ((s.flight f).state = .free → (s.flight f).queue = []) ∧
      (isFlying (s.flight f).state = true → (s.flight f).claim ≠ none) ∧
      ∀ n, (n ∈ (s.flight f).members ↔ (s.axis n).flight = some f) ∧ (n ∈ (s.flight f).members →
        ((s.flight f).state = .arming → (s.axis n).released = true) ∧
        (isFlying (s.flight f).state = true → (s.flight f).state ≠ .arming → (s.axis n).state = .following) ∧
        ((s.flight f).state = .parked → (s.axis n).state = .braked) ∧
        ((s.flight f).state = .tripped → (s.axis n).state = .braked ∨ (s.axis n).state = .faulted)))
    (axes : ∀ n, ((s.axis n).state = .unconfigured ↔ (s.axis n).params = none) ∧
      ((s.axis n).flight ≠ none → (s.axis n).state ≠ .unconfigured) ∧
      ((s.axis n).released = true → ∃ f, (s.axis n).flight = some f ∧ isFlying (s.flight f).state = true))
    (apart : ∀ m n, (s.axis m).params = none ∨
      (s.axis m).params.map (·.address) ≠ (s.axis n).params.map (·.address) ∨ m = n) : RigSound s where
  members f := (flights f).1
  bound f n := ((flights f).2.2.2.2 n).1
  free f := (flights f).2.1
  freeQueue f := (flights f).2.2.1
  configured n := (axes n).1
  boundConfigured n := (axes n).2.1
  released n h := ((axes n).2.2 h).imp fun _ x => ⟨x.1, (flies_iff _).mpr x.2⟩
  arming f n h := (((flights f).2.2.2.2 n).2 h).1
  following f n h x := (((flights f).2.2.2.2 n).2 h).2.1 ((flies_iff _).mp x)
  parked f n h := (((flights f).2.2.2.2 n).2 h).2.2.1
  tripped f n h := (((flights f).2.2.2.2 n).2 h).2.2.2
  claimed f x := (flights f).2.2.2.1 ((flies_iff _).mp x)
  addresses := addressesApart apart

/-- The MOVING rig after one expiry, the bus in its round, with a step expiry waiting. -/
def flying : State := { expiries 1 moving with pending := [.stepExpiry] }
/-- The PARKED rig with an ARM waiting. -/
def toArm : State := { parked with pending := [.arm .a 0] }
/-- The TRIPPED rig with a step expiry waiting. -/
def atRest : State := { tripped with pending := [.stepExpiry] }

theorem flying_rig : RigSound flying := rigSound_of (by decide +kernel) (by decide +kernel) (by decide +kernel)

theorem toArm_rig : RigSound toArm := rigSound_of (by decide +kernel) (by decide +kernel) (by decide +kernel)

theorem atRest_rig : RigSound atRest := rigSound_of (by decide +kernel) (by decide +kernel) (by decide +kernel)

theorem toArm_outputs : OutputsFollow toArm where
  brake := by decide +kernel
  pulsed := by
    have off : toArm.sounder = .off := by decide +kernel
    have none : ∀ f, (toArm.flight f).state ≠ .tripped := by decide +kernel
    simp [off, none]
  phase := by
    have off : toArm.sounder = .off := by decide +kernel
    simp [off]
  steady := by decide +kernel
  fault := by decide +kernel

theorem witness_StepKeepsOutputs : OutputsFollow toArm ∧ ∃ t, step toArm = .next t := ⟨toArm_outputs, _, rfl⟩

theorem witness_StepKeepsRig : RigSound flying ∧ ∃ t, step flying = .next t := ⟨flying_rig, _, rfl⟩

theorem flying_shapes : FlightsShaped flying := fun f =>
  { atRest := by revert f; decide +kernel
    onPath := by revert f; decide +kernel
    dwelling := by revert f; decide +kernel
    held := by revert f; decide +kernel
    tripped := by revert f; decide +kernel
    armTimer := by revert f; decide +kernel
    tripCause := by revert f; decide +kernel
    furtherTrips := by revert f; decide +kernel }

theorem witness_StepKeepsFlightShapes : FlightsShaped flying ∧ ∃ t, step flying = .next t := ⟨flying_shapes, _, rfl⟩

theorem flying_records : RecordsInRange flying where
  queue := by simp only [Segment.InRange]; decide +kernel
  active := by
    show ∀ f, ∀ act ∈ (flying.flight f).active, act.seg.InRange
    simp only [Segment.InRange]; decide +kernel
  limits := by decide +kernel
  timers := by
    show ∀ f, (∀ d ∈ (flying.flight f).dwell, d ≤ 65535) ∧ ∀ t ∈ (flying.flight f).armTimer, t ≤ 100
    decide +kernel
  params := by
    show ∀ n, ∀ p ∈ (flying.axis n).params, p.InRange
    simp only [AxisParams.InRange]; decide +kernel
  slots := by simp only [Slot.InRange]; decide +kernel

theorem witness_StepKeepsRecords : RecordsInRange flying ∧ ∃ t, step flying = .next t := ⟨flying_records, _, rfl⟩

theorem flying_paths : PathsSound flying := fun f act h =>
  { within := by revert act; show ∀ act ∈ (flying.flight f).active, _; revert f; decide +kernel
    slowEnough := by revert act; show ∀ act ∈ (flying.flight f).active, _; revert f; decide +kernel
    speedLimit := by revert act; show ∀ act ∈ (flying.flight f).active, _; revert f; decide +kernel
    accel := by revert act; show ∀ act ∈ (flying.flight f).active, _; revert f; decide +kernel
    decel := by revert act; show ∀ act ∈ (flying.flight f).active, _; revert f; decide +kernel
    braking := by revert act; show ∀ act ∈ (flying.flight f).active, _; revert f; decide +kernel
    stopping := by
      intro stops
      have none : ∀ f, (flying.flight f).state ≠ .stopping := by decide +kernel
      exact absurd stops (none f)
    resting := by revert act; show ∀ act ∈ (flying.flight f).active, _; revert f; decide +kernel }

theorem witness_StepKeepsPaths :
    RigSound flying ∧ FlightsShaped flying ∧ RecordsInRange flying ∧ PathsSound flying ∧ ∃ t, step flying = .next t :=
  ⟨flying_rig, flying_shapes, flying_records, flying_paths, _, rfl⟩

theorem witness_StepKeepsStreaks : RigSound flying ∧ StreaksSound flying ∧ ∃ t, step flying = .next t :=
  ⟨flying_rig,
   { missed := by decide +kernel, written := by decide +kernel, three := by decide +kernel, cause := by decide +kernel },
   _, rfl⟩

theorem flying_ports : PortsSound flying := fun st =>
  have hunting : ∀ st, (flying.port st).stage = .hunting := by intro st; cases st <;> decide +kernel
  { silence := by cases st <;> decide +kernel
    silent := by cases st <;> decide +kernel
    buffer := by cases st <;> decide +kernel
    content := fun h => by rw [hunting] at h; cases h
    check := fun h => by rw [hunting] at h; cases h
    length := fun h => by rw [hunting] at h; cases h }

theorem flying_bus : BusSound flying where
  running := by decide +kernel
  pending := by decide +kernel
  turn := by show ∀ x ∈ flying.turn, _; decide +kernel
  exchange := by show ∀ x ∈ flying.exchange, _; decide +kernel

/-- Station A enabled by the one link on a line, which reads LOW, and a change to HIGH that waits. -/
def enabling : State :=
  { ((parked.setLink 23 (some { source := .line 15, cond := .low, action := .enableStation .a })).updLine 15 fun l =>
      { l with raw := .high, filtered := some .low, pending := some .high }) with pending := [.filterAccept 15] }

theorem enablesFollow_of {s : State} (h : ∀ u, s.enables.get u = enableOf s u) : EnablesFollow s :=
  fun u => by rw [h u]; exact enableOf_iff s u

theorem witness_StepKeepsControllers :
    PortsSound flying ∧ BusSound flying ∧ ScannerSound flying ∧ (∃ t, step flying = .next t) ∧ EnablesFollow enabling ∧
      enabling.enables.get .a = true ∧ ∃ t, step enabling = .next t ∧ t.enables.get .a = false :=
  ⟨flying_ports, flying_bus,
   { stopped := by decide +kernel, waiting := by decide +kernel, scanning := by decide +kernel }, ⟨_, rfl⟩,
   enablesFollow_of (by intro u; cases u <;> decide +kernel), by decide +kernel, _, rfl, by decide +kernel⟩

theorem witness_BrakesReleaseByArmAlone :
    OutputsFollow toArm ∧ RigSound toArm ∧ ∃ t, step toArm = .next t ∧ toArm.brake 0 = false ∧ t.brake 0 = true :=
  ⟨toArm_outputs, toArm_rig, _, rfl, by decide +kernel, by decide +kernel⟩

theorem witness_TrippedRopesStand :
    RigSound atRest ∧ ∃ t, step atRest = .next t ∧ 1 ∈ (atRest.flight 0).members ∧ (atRest.flight 0).state = .tripped ∧
      (t.flight 0).state = .tripped :=
  ⟨atRest_rig, _, rfl, by decide +kernel, by decide +kernel, by decide +kernel⟩

/-- A segment that goes on, and one whose end starts the FOLLOW record behind it. -/
theorem witness_SegmentStandsOrIsNew :
    (RigSound flying ∧ ∃ t a b, step flying = .next t ∧ (flying.flight 0).active = some a ∧ (t.flight 0).active = some b ∧
      a.pos < b.pos) ∧
      let chained := (expiries 8 moving).updFlight 0 fun r => { r with queue := [bounce .follow] }
      (chained.flight 0).active.map (·.pos) = some 304 ∧
        ((after .stepExpiry chained).flight 0).active.map (·.pos) = some 0 :=
  ⟨⟨flying_rig, _, _, _, rfl, rfl, rfl, by decide +kernel⟩, by decide +kernel⟩

theorem witness_TripCauseStands :
    FlightsShaped atRest ∧ ∃ t, step atRest = .next t ∧ (atRest.flight 0).tripCause = some (.stationStop .c) :=
  ⟨fun f =>
    { atRest := by revert f; decide +kernel
      onPath := by revert f; decide +kernel
      dwelling := by revert f; decide +kernel
      held := by revert f; decide +kernel
      tripped := by revert f; decide +kernel
      armTimer := by revert f; decide +kernel
      tripCause := by revert f; decide +kernel
      furtherTrips := by revert f; decide +kernel }, _, rfl, by decide +kernel⟩

/-! #### Requests on the line -/

/-- A BIND of one axis and of four; a decoded request of 21 bytes. -/
theorem witness_RequestsRoundTrip :
    encodeRequest (.bind .a 5 [11]) = some (.a, kindBind, [5, 11]) ∧
      encodeRequest (.bind .a 5 [0, 1, 2, 3]) = some (.a, kindBind, [5, 0, 1, 2, 3]) ∧
      1 ≤ [(11 : Byte)].length ∧ [(0 : Byte), 1, 2, 3].length ≤ 4 ∧
      decodeRequest .c kindScan [0xFF] = .request (.scan .c 0xFF) ∧
      encodeRequest (.readLines .b none) = some (.b, kindReadLines, []) := by decide +kernel

/-- A quiet port, with an empty BODY and one of 199 bytes. -/
theorem witness_FrameBytesTakeTheRequest :
    ([] : List Byte).length ≤ 199 ∧ (List.replicate 199 (0 : Byte)).length ≤ 199 ∧ parked.resetAsserted = false ∧
      (parked.port .b).stage = .hunting ∧ (parked.port .b).assembly = .empty ∧ (parked.port .b).buffer = none ∧
      (parked.port .b).tx = .idle := by decide +kernel

/-- A refused GO and the one exception, a GO whose head is out of limits. -/
theorem witness_RefusalsChangeNothing :
    encodeRequest (.go .a 0) = some (.a, kindGo, [0]) ∧ (rig .ready .following).resetAsserted = false ∧
      code .a (after (.go .a 0) (rig .ready .following)) = some 9 := by decide +kernel

/-- FL5, which nobody claims, and FL0, whose claimer's enable is false, or which fell SILENT while its request waited. -/
theorem witness_DrivingNeedsTheClaim :
    NamesFlight 5 5 ∧ parked.resetAsserted = false ∧ (parked.flight 5).claim ≠ some .a ∧
      (bindAxesOf [11]).isSome = true ∧ (limitsOf 1 0xF001 0x0FFF).isSome = true ∧
      (segmentOf 0 15 0 0 0 0 1 1 1024 0 2 3).isSome = true ∧
      (paramsOf 0x08 0 1 192000 1024 1000000 7).isSome = true ∧
      (NamesFlight 0 0 ∧ (parked.flight 0).claim ≠ some .b ∧ (1 : Byte).toNat = (1 : AxisId).val ∧
        (parked.axis 1).flight = some 0) ∧
      (parked.flight 0).claim = some .a ∧ (parked.setEnable .a false).enables.get .a = false ∧
      ((parked.setEnable .a false).flight 0).claim = some .a ∧ kindArm ∈ [kindArm, kindGo, kindResume] ∧
      let waited := (((after (.status .a) parked).setSilent .a true).updPort .a fun p =>
        { p with buffer := some { kind := kindArm, body := [0] } })
      waited.resetAsserted = false ∧ (waited.flight 0).claim = some .a ∧ waited.silents.get .a = true ∧
        (waited.port .a).tx ≠ .idle ∧ (waited.port .a).buffer = some { kind := kindArm, body := [0] } := by
  refine ⟨rfl, ?_, ?_, ?_, ?_, ?_, ?_, ⟨rfl, ?_⟩, ?_⟩ <;> decide +kernel

/-- A number that names no flight. -/
theorem witness_DrivingNeedsTheClaim_noFlight : 6 ≤ (6 : Byte).toNat ∧ parked.resetAsserted = false := by decide +kernel

/-- A state in which link 23, a level HOLD_ALL on SNS15, has its condition true. -/
def persisting (s : State) : State :=
  (s.setLink 23 (some { source := .line 15, cond := .low, action := .holdAll })).updLine 15 fun l =>
    { l with filtered := some .low }

theorem persisting_true (s : State) :
    (persisting s).link 23 = some { source := .line 15, cond := .low, action := .holdAll } ∧
      ({ source := .line 15, cond := .low, action := .holdAll } : Link).Targets 0 ∧
      ({ source := .line 15, cond := .low, action := .holdAll } : Link).ConditionTrue (persisting s) := by
  refine ⟨by simp [persisting, State.link, State.updLine, State.setLink, updAt], .inr (.inl rfl), .inl ⟨15, rfl, .inr ⟨rfl, ?_⟩⟩⟩
  simp [persisting]

/-! #### Station authority -/

theorem witness_ClaimTable :
    (parked.resetAsserted = false ∧ 6 ≤ (6 : Byte).toNat ∧ 2 ≤ (2 : Byte).toNat) ∧ NamesFlight 5 5 ∧
      (1 : Byte).toNat < 2 := ⟨by decide +kernel, rfl, by decide⟩

theorem witness_ReleaseRule : parked.resetAsserted = false ∧ 6 ≤ (6 : Byte).toNat ∧ NamesFlight 5 5 :=
  ⟨by decide +kernel, by decide, rfl⟩

theorem witness_SilenceRestrains :
    quiet.timerRunning = true ∧ quiet.silents.get .a = false ∧ (quiet.port .a).silence = 249 := by decide +kernel

/-! #### Flights and axes -/

/-- A claimer that may start, its flight FL0, and no link in use. -/
structure Drives (s : State) : Prop where
  names : NamesFlight 0 0
  live : s.resetAsserted = false
  claim : (s.flight 0).claim = some .a
  enable : s.enables.get .a = true
  active : s.silents.get .a = false
  links : ∀ i l, s.link i = some l → l.Targets 0 → ¬l.ConditionTrue s

/-- The hypotheses of the driving statements, from what can be decided. -/
theorem drives_of {s : State}
    (h : s.resetAsserted = false ∧ (s.flight 0).claim = some .a ∧ s.enables.get .a = true ∧ s.silents.get .a = false ∧
      ∀ i, s.link i = none) : Drives s :=
  ⟨rfl, h.1, h.2.1, h.2.2.1, h.2.2.2.1, fun i l hl => by rw [h.2.2.2.2 i] at hl; cases hl⟩

/-- FL0 FREE and claimed by Station A, AX0 and AX1 unbound. -/
def unbound : State := after (.unbind .a 0) parked

/-- A BIND of one axis to a FREE flight and of two to a PARKED one; UNBIND in PARKED and elsewhere. -/
theorem witness_BindAndUnbind :
    (NamesFlight 0 0 ∧ unbound.resetAsserted = false ∧ [(0 : Byte)].map BitVec.toNat = [(0 : AxisId)].map Fin.val ∧
      (unbound.flight 0).claim = some .a ∧ (unbound.flight 0).state = .free ∧
      ∀ n ∈ [(0 : AxisId)], (unbound.axis n).state ≠ .unconfigured ∧ (unbound.axis n).state ≠ .faulted ∧
        (unbound.axis n).flight = none) ∧
    ([(1 : Byte), 0].map BitVec.toNat = [(1 : AxisId), 0].map Fin.val ∧ [(1 : AxisId), 0].Nodup ∧ (parked.flight 0).state = .parked ∧
      ∀ n ∈ [(1 : AxisId), 0], (parked.axis n).state ≠ .unconfigured ∧ (parked.axis n).state ≠ .faulted ∧
        (parked.axis n).flight = some 0) ∧ (moving.flight 0).claim = some .a ∧ (moving.flight 0).state ≠ .parked := by
  refine ⟨⟨rfl, ?_⟩, ?_⟩ <;> decide +kernel

/-- A BIND refused by each of its checks: lists at the edges of the first; a flight that Station A does not claim; a MOVING one; an
UNCONFIGURED axis; a member of another flight; a FAULTED axis. -/
theorem witness_BindAndUnbind_refused :
    (6 ≤ (6 : Byte).toNat ∧ 4 < [(0 : Byte), 1, 2, 3, 4].length ∧ 12 ≤ (12 : Byte).toNat ∧ ¬[(0 : Byte), 0].Nodup) ∧
    ([(11 : Byte)].map BitVec.toNat = [(11 : AxisId)].map Fin.val ∧ (parked.flight 0).claim = some .a ∧
      (parked.flight 0).state = .parked ∧ (parked.axis 11).state = .unconfigured) ∧
    (parked.flight 5).claim ≠ some .a ∧
    ((moving.flight 0).claim = some .a ∧ (moving.flight 0).state ≠ .free ∧ (moving.flight 0).state ≠ .parked) ∧
    ((parked.updAxis 1 fun a => { a with flight := some 1 }).axis 1).flight = some 1 ∧
    let faulted := parked.updAxis 1 fun a => { a with state := .faulted }
    (faulted.axis 0).state = .braked ∧ (faulted.axis 0).flight = some 0 ∧ (faulted.axis 1).state = .faulted ∧
      (faulted.axis 1).flight = some 0 := by decide +kernel

/-- UNBIND of a flight that Station B does not claim. -/
theorem witness_BindAndUnbind_notClaimed : NamesFlight 0 0 ∧ (parked.flight 0).claim ≠ some .b :=
  ⟨rfl, by decide +kernel⟩

/-- A first configuration at the smallest values, and one of a bound axis with every value at its largest. -/
theorem witness_ConfigureAxisStores :
    (parked.resetAsserted = false ∧ (11 : Byte).toNat = (11 : AxisId).val ∧ 0x08 ≤ (0x08 : Byte).toNat ∧
      0 ≤ (0 : Word).toInt ∧ (0 : Word).toInt < (1 : Word).toInt ∧ 1 ≤ (1 : Half).toNat ∧
      (parked.axis 11).flight = none ∧ (parked.axis 11).missedStreak ≠ 3 ∧
      ∀ m, (parked.axis m).params.map (·.address) ≠ some ((0x08 : Byte).setWidth 7)) ∧
    ((0x77 : Byte).toNat ≤ 0x77 ∧ (60000000 : Word).toInt ≤ 60000000 ∧ (192000 : Word).toNat ≤ 192000 ∧
      (1024 : Half).toNat ≤ 1024 ∧ (1000000 : Word).toNat ≤ 1000000 ∧ (7 : Byte).toNat = (7 : SlotId).val ∧
      (parked.axis 0).flight = some 0 ∧ (parked.flight 0).claim = some .a ∧ (parked.flight 0).state = .parked ∧
      ∀ m, (parked.axis m).params.map (·.address) ≠ some ((0x77 : Byte).setWidth 7)) := by decide +kernel

/-- A CONFIGURE-AXIS refused by each of its checks: parameters just outside; a member of another station's flight; of a MOVING
flight; an address in use; a missed streak of 3. -/
theorem witness_ConfigureAxisStores_refused :
    (12 ≤ (12 : Byte).toNat ∧ (0x07 : Byte).toNat < 0x08 ∧ 0x77 < (0x78 : Byte).toNat ∧ (0xFFFFFFFF : Word).toInt < 0 ∧
      (5 : Word).toInt ≤ (5 : Word).toInt ∧ 60000000 < (60000001 : Word).toInt ∧ (0 : Word).toNat < 1 ∧
      192000 < (192001 : Word).toNat ∧ 1024 < (1025 : Half).toNat ∧ 1000000 < (1000001 : Word).toNat ∧ 8 ≤ (8 : Byte).toNat) ∧
    ((parked.axis 0).flight = some 0 ∧ (parked.flight 0).claim ≠ some .b) ∧
    ((moving.axis 0).flight = some 0 ∧ (moving.flight 0).claim = some .a ∧ (moving.flight 0).state ≠ .parked) ∧
    ((parked.axis 11).flight = none ∧ (parked.axis 0).state ≠ .unconfigured ∧
      (parked.axis 0).params.map (·.address) = some ((0x20 : Byte).setWidth 7)) ∧
    let silent := unbound.updAxis 0 fun a => { a with state := .faulted, missedStreak := 3 }
    (silent.axis 0).flight = none ∧ (silent.axis 0).missedStreak = 3 := by decide +kernel

/-- Flight limits at both ends of every range, and just outside each. -/
theorem witness_FlightLimitsRule :
    parked.resetAsserted = false ∧ (limitsOf 1 0xF001 0x0FFF).isSome = true ∧ (limitsOf 1024 0xF001 0xF001).isSome = true ∧
      limitsOf 0 0 0 = none ∧ limitsOf 1025 0 0 = none ∧ limitsOf 1 0xF000 0 = none ∧ limitsOf 1 0 0x1000 = none ∧
      limitsOf 1 1 0 = none := by decide +kernel

/-- A rig whose AX1 has no measured position. -/
def unmeasured : State := parked.updAxis 1 fun a => { a with measured := none }

theorem witness_ArmReleases :
    (Drives moving ∧ (moving.flight 0).state ≠ .parked) ∧
      (Drives unmeasured ∧ (unmeasured.flight 0).state = .parked ∧
        ∃ n ∈ (unmeasured.flight 0).members, (unmeasured.axis n).measured = none) ∧
      (Drives parked ∧ (parked.flight 0).state = .parked ∧
        ∀ n ∈ (parked.flight 0).members, (parked.axis n).measured ≠ none) :=
  ⟨⟨drives_of (by decide +kernel), by decide +kernel⟩, ⟨drives_of (by decide +kernel), by decide +kernel⟩,
   drives_of (by decide +kernel), by decide +kernel⟩

theorem witness_ParkBrakes :
    (Drives held ∧ (held.flight 0).state = .held) ∧ (Drives (ready .go) ∧ ((ready .go).flight 0).state = .ready) ∧
      (Drives moving ∧ (moving.flight 0).state = .moving) :=
  ⟨⟨drives_of (by decide +kernel), by decide +kernel⟩, ⟨drives_of (by decide +kernel), by decide +kernel⟩,
   drives_of (by decide +kernel), by decide +kernel⟩

/-- Timers of 1 with the first member, and with the second alone, RELEASING; the sounder at its 124th count. -/
theorem witness_LoneExpiries :
    let s := arming.updFlight 0 fun r => { r with armTimer := some 1 }
    let second := s.updAxis 0 fun a => { a with state := .following }
    s.timerRunning = true ∧ (s.flight 0).state = .arming ∧ (s.flight 0).armTimer = some 1 ∧
      (s.flight 0).members = [] ++ 0 :: [1] ∧ (s.axis 0).state = .releasing ∧
      (second.flight 0).members = [0] ++ 1 :: [] ∧ (second.axis 1).state = .releasing ∧
      (∀ m ∈ [(0 : AxisId)], (second.axis m).state ≠ .releasing) ∧
      ({ tripped with sounder := .pulsed true 124 } : State).timerRunning = true := by decide +kernel

/-! #### The segment queue -/

theorem bounce_fits (k : StartKind) : TargetsFit (rig .ready .following) 0 (bounce k) :=
  (targetsWithin_iff _ _ _).mp (by cases k <;> decide +kernel)

/-- A record with every field at an end of its range; its targets fit, do not fit, or name a slot without a member. -/
theorem witness_AppendJoinsTheTail :
    Drives parked ∧ (parked.flight 0).state ≠ .free ∧ (15 : Byte).toNat < 16 ∧ (3 : Byte).toNat < 4 ∧
      1 ≤ (1 : Word).toNat ∧ (192000 : Word).toNat ≤ 192000 ∧ 1 ≤ (1 : Half).toNat ∧ (1024 : Half).toNat ≤ 1024 ∧
      (∃ i : Fin 4, (parked.flight 0).members.length ≤ i.val ∧ (4 : Byte).getLsbD i = true) ∧
      (∀ i : Fin 4, (parked.flight 0).members.length ≤ i.val → (3 : Byte).getLsbD i = false) ∧
      TargetsFit parked 0 (bounce .go) ∧
      ¬TargetsFit parked 0 { bounce .go with targets := #v[some 60000001, none, none, none] } :=
  ⟨drives_of (by decide +kernel), by decide +kernel, by decide, by decide, by decide, by decide, by decide, by decide,
   by decide +kernel, by decide +kernel, (targetsWithin_iff _ _ _).mp (by decide +kernel),
   fun h => absurd ((targetsWithin_iff _ _ _).mpr h) (by decide +kernel)⟩

/-- Fields just outside their ranges; a flight that Station B does not claim; a FREE flight of its claimer; a full queue. -/
theorem witness_AppendJoinsTheTail_refused :
    (parked.resetAsserted = false ∧ 6 ≤ (6 : Byte).toNat ∧ 16 ≤ (16 : Byte).toNat ∧ 4 ≤ (4 : Byte).toNat ∧ (0 : Word).toNat < 1 ∧
      192000 < (192001 : Word).toNat ∧ (0 : Half).toNat < 1 ∧ 1024 < (1025 : Half).toNat ∧ 3 ≤ (3 : Byte).toNat) ∧
    (parked.flight 0).claim ≠ some .b ∧ ((unbound.flight 0).claim = some .a ∧ (unbound.flight 0).state = .free) ∧
    8 ≤ (((ready .go).updFlight 0 fun r => { r with queue := List.replicate 8 (bounce .go) }).flight 0).queue.length := by
  decide +kernel

theorem witness_FlushAndCueGates : Drives parked ∧ Drives unbound ∧ (unbound.flight 0).state = .free :=
  ⟨drives_of (by decide +kernel), drives_of (by decide +kernel), by decide +kernel⟩

/-- The rig READY with a head that checks its loads, no slot being named. -/
theorem witness_GoStartsTheHead :
    (Drives parked ∧ (parked.flight 0).state ≠ .ready) ∧
      (Drives (rig .ready .following) ∧ ((rig .ready .following).flight 0).queue = []) ∧
      (Drives (ready .go) ∧ ((ready .go).flight 0).queue = [bounce .go] ∧ TargetsFit (ready .go) 0 (bounce .go) ∧
        LoadsFit (ready .go) 0) :=
  ⟨⟨drives_of (by decide +kernel), by decide +kernel⟩, ⟨drives_of (by decide +kernel), by decide +kernel⟩,
   drives_of (by decide +kernel), by decide +kernel, (targetsWithin_iff _ _ _).mp (by decide +kernel),
   (loadPasses_iff _ _).mp (by decide +kernel)⟩

/-- A head one µm outside the limits, and one whose load check meets a slot without a result. -/
def wide : State := (rig .ready .following).updFlight 0 fun r =>
  { r with queue := [{ bounce .go with targets := #v[some 60000001, none, none, none] }] }
def loaded : State := ((rig .ready .following).updAxis 0 fun a => { a with params := some { params 0x20 with slot := some 7 } }).updFlight 0
  fun r => { r with queue := [{ bounce .go with loadCheck := true }] }

theorem witness_GoRejectsTheHead :
    (Drives wide ∧ (wide.flight 0).state = .ready ∧
      ¬TargetsFit wide 0 { bounce .go with targets := #v[some 60000001, none, none, none] }) ∧
      (Drives loaded ∧ (loaded.flight 0).state = .ready ∧ TargetsFit loaded 0 { bounce .go with loadCheck := true } ∧
        ¬LoadsFit loaded 0) :=
  ⟨⟨drives_of (by decide +kernel), by decide +kernel, fun h => absurd ((targetsWithin_iff _ _ _).mpr h) (by decide +kernel)⟩,
   drives_of (by decide +kernel), by decide +kernel, (targetsWithin_iff _ _ _).mp (by decide +kernel),
   fun h => absurd ((loadPasses_iff _ _).mpr h) (by decide +kernel)⟩

/-- SNS3 LOW with HIGH pending, link 4 its only one, FL0 READY with a CUE head and its gate open. -/
def cued : State :=
  (((after (.openCue .a 0) (ready .cue)).setLink 4 (some { source := .line 3, cond := .rise, action := .cueFlight 0 })).updLine 3
    fun l => { l with raw := .high, filtered := some .low, pending := some .high })

/-- What the entries of a table say of the links in use, from a test of the entries. -/
theorem onlyLink {s : State} {i : LinkId} {l : Link} (here : s.link i = some l) (elsewhere : ∀ j, j ≠ i → s.link j = none) :
    SoleLink i l s := ⟨here, fun j m ne hm => by rw [elsewhere j ne] at hm; cases hm⟩

theorem witness_CueStartsTheHead :
    cued.resetAsserted = false ∧ (cued.line 3).filterOn = true ∧ (cued.line 3).filtered = some .low ∧
      (cued.line 3).pending = some .high ∧ SoleLink 4 { source := .line 3, cond := .rise, action := .cueFlight 0 } cued ∧
      (cued.flight 0).state = .ready ∧ (cued.flight 0).queue = [bounce .cue] ∧ (cued.flight 0).claim = some .a ∧
      cued.mayStart .a = true ∧ (∀ j l, cued.link j = some l → l.Targets 0 → ¬l.ConditionTrue cued) ∧
      TargetsFit cued 0 (bounce .cue) ∧ (cued.flight 0).cueGate = .opened := by
  refine ⟨by decide +kernel, by decide +kernel, by decide +kernel, by decide +kernel,
    onlyLink (by decide +kernel) (by decide +kernel), by decide +kernel, by decide +kernel, by decide +kernel,
    by decide +kernel, ?_, (targetsWithin_iff _ _ _).mp (by decide +kernel), by decide +kernel⟩
  intro j l hl t c
  have quiet : cued.persists 0 = false := by decide +kernel
  exact absurd ((persists_iff cued 0).mpr ⟨j, l, hl, t, c⟩) (by simp [quiet])

/-- A level hold in each state of the flight; and a rise that both cues FL0 and makes the
condition of a level hold true. -/
theorem witness_PersistingConditionRefuses :
    (NamesFlight 0 0 ∧ ∀ s ∈ [parked, ready .cue, held, tripped],
      (persisting s).resetAsserted = false ∧ ((persisting s).flight 0).claim = some .a ∧
      (persisting s).enables.get .a = true) ∧
    let both := cued.setLink 5 (some { source := .line 3, cond := .high, action := .holdFlight 0 })
    both.resetAsserted = false ∧ (both.line 3).filterOn = true ∧ (both.line 3).filtered = some .low ∧
      (both.line 3).pending = some .high ∧
      both.link 4 = some { source := .line 3, cond := .rise, action := .cueFlight 0 } ∧
      both.link 5 = some { source := .line 3, cond := .high, action := .holdFlight 0 } ∧
      (∀ k, k ≠ 4 → k ≠ 5 → both.link k = none) ∧ (both.flight 0).state = .ready ∧
      (both.flight 0).cueGate = .opened ∧ (both.flight 0).queue = [bounce .cue] ∧ (both.flight 0).claim = some .a ∧
      both.mayStart .a = true ∧ both.persists 0 = false ∧ TargetsFit both 0 (bounce .cue) := by
  refine ⟨⟨rfl, by decide +kernel⟩, ?_⟩
  refine ⟨?_, ?_, ?_, ?_, ?_, ?_, ?_, ?_, ?_, ?_, ?_, ?_, ?_, (targetsWithin_iff _ _ _).mp (by decide +kernel)⟩ <;>
    decide +kernel

/-- Beside the cue of SNS3, a hold and a trip of FL0 on the rise and on HIGH, and what each of the four can lead to. -/
theorem witness_PersistingConditionRefuses_beside :
    ∀ cond ∈ [Condition.rise, .high], ∀ action ∈ [Action.holdFlight 0, .tripFlight 0],
      let both := cued.setLink 5 (some { source := .line 3, cond := cond, action := action })
      both.link 5 = some { source := .line 3, cond := cond, action := action } ∧ (∀ k, k ≠ 4 → k ≠ 5 → both.link k = none) ∧
        (both.flight 0).state = .ready ∧ both.mayStart .a = true ∧ both.persists 0 = false := by decide +kernel

theorem witness_StartFixesTheLimits :
    (∀ a ∈ [rope .following 0x20 0], ∃ p, a.params = some p ∧ p.InRange) ∧ (bounce .go).InRange ∧ 1 ≤ 1024 := by
  refine ⟨fun a h => ?_, by simp only [Segment.InRange]; decide, by decide⟩
  rw [List.mem_singleton.mp h]
  exact ⟨params 0x20, rfl, by simp only [AxisParams.InRange]; decide⟩

/-- A dwell of 1 with no record, and with a FOLLOW head that passes its checks and one that fails them. -/
theorem witness_DwellEnds :
    let beyond : Segment := { bounce .follow with targets := #v[some 60000001, none, none, none] }
    dwelling.timerRunning = true ∧ (dwelling.flight 0).state = .dwell ∧ (dwelling.flight 0).dwell = some 1 ∧
      (dwelling.flight 0).queue = [] ∧
      TargetsFit (dwelling.updFlight 0 fun r => { r with queue := [bounce .follow] }) 0 (bounce .follow) ∧
      (bounce .follow).loadCheck = false ∧ beyond.start = .follow ∧
      ¬TargetsFit (dwelling.updFlight 0 fun r => { r with queue := [beyond] }) 0 beyond :=
  ⟨by decide +kernel, by decide +kernel, by decide +kernel, by decide +kernel,
   (targetsWithin_iff _ _ _).mp (by decide +kernel), rfl, rfl,
   fun h => absurd ((targetsWithin_iff _ _ _).mpr h) (by decide +kernel)⟩

/-! #### The path -/

theorem witness_BrakingDistanceSums : 1 ≤ 1 ∧ 192000 ≤ 192000 := by decide

/-- The smallest values a running segment can have. -/
theorem witness_SpeedChoice :
    let act : Active := { seg := bounce .go, starts := [], pathLen := 16, pos := 15, speed := 1, vEff := 1, aUpEff := 1,
                          aDnEff := 1, aHoldEff := 1, aStop := none, byCue := false }
    1 ≤ act.aUpEff ∧ 1 ≤ act.aDnEff ∧ 1 ≤ act.vEff ∧ act.speed ≤ act.vEff ∧ 1 ≤ act.pathLen - act.pos := by decide

/-- The nine-step move short of its end, at its last expiry with no record, a FOLLOW record that passes, one that fails, a full
queue, and a segment of length 0. -/
theorem witness_ExpiryAdvancesMoving :
    (moving.timerRunning = true ∧ (moving.flight 0).state = .moving ∧ (moving.flight 0).claim = some .a ∧
      (moving.port .a).silence < 249 ∧ (moving.flight 0).active.any (fun a => decide (a.pos < a.pathLen)) = true ∧
      (moving.flight 0).members.Nodup ∧ (moving.axis 0).state ≠ .faulted ∧
      ∀ g, g ≠ 0 → (0 : AxisId) ∉ (moving.flight g).members) ∧
    ((expiries 8 moving).flight 0).active.any (fun a => decide (a.pos = 304 ∧ a.seg.dwell = 0)) = true ∧
    (activeOf [] 64 (bounce .go) false).pos = (activeOf [] 64 (bounce .go) false).pathLen ∧
    (let ends (r : Bool) (q : List Segment) := after .stepExpiry ((expiries 8 moving).updFlight 0 fun x =>
       { x with queue := q, active := x.active.map fun a => { a with seg := { a.seg with recycle := r } } })
     ((ends false [bounce .follow]).flight 0).state = .moving ∧
     ((ends false [{ bounce .follow with targets := #v[some 60000001, none, none, none] }]).flight 0).state = .ready ∧
     (((ends true (List.replicate 8 (bounce .go))).port .b).flightNotices[(0 : FlightId)]).lost = true) := by decide +kernel

theorem witness_ExpiryAdvancesStopping :
    stopping.timerRunning = true ∧ (stopping.flight 0).state = .stopping ∧
      (stopping.flight 0).active.any (fun a => decide (a.aStop = some 16 ∧ a.pos = 304)) = true ∧
      (stopping.port .a).silence < 249 ∧
      ((after (.hold .c 0) (expiries 4 moving)).flight 0).active.any (fun a => decide (a.aStop = some 64 ∧ a.speed ≤ 64)) = true ∧
      (stopping.flight 0).members.Nodup ∧ (stopping.axis 0).state ≠ .faulted := by decide +kernel

theorem arming_rig : RigSound arming := rigSound_of (by decide +kernel) (by decide +kernel) (by decide +kernel)

/-- Counters at 248, 249 and 250; a round that is IDLE, with and without a configured axis, and one that runs; a WAITING
scanner; a phase; an ARMING rig; a dwell that counts. -/
theorem witness_ExpiryReachesTheRest :
    (moving.timerRunning = true ∧ (quiet.silents.get .a = false ∧ 249 ≤ (quiet.port .a).silence) ∧
      (moving.silents.get .a = false ∧ (moving.port .a).silence < 249) ∧
      (after (.silence .a) quiet).silents.get .a = true ∧ moving.round = .idle ∧
      ((moving.axis 0).state ≠ .unconfigured ∧ ∀ k, k < (0 : AxisId) → (moving.axis k).state = .unconfigured) ∧
      (State.reset.timerRunning = true ∧ ∀ n, (State.reset.axis n).state = .unconfigured) ∧
      (after .stepExpiry moving).round = .running ∧ moving.scanState ≠ .waiting ∧
      (after (.scan .a 3) moving).scanState = .waiting ∧ (after (.scan .a 3) moving).scanMode = .step ∧
      tripped.sounder = .pulsed true 0 ∧ (tripped.flight 0).state = .tripped) ∧
    RigSound arming ∧ arming.timerRunning = true ∧ (arming.flight 0).claim = some .a ∧ (arming.port .a).silence < 249 ∧
      (arming.flight 0).state = .arming ∧ (arming.flight 0).armTimer = some 100 ∧ (parked.flight 0).state = .parked ∧
      ((arming.flight 0).members = [] ++ 0 :: [1] ∧ (arming.axis 0).state = .releasing) ∧
      (dwelling.updFlight 0 fun r => { r with dwell := some 2 }).flight 0 =
        { (rig .dwell .following).flight 0 with dwell := some 2 } :=
  ⟨by decide +kernel, arming_rig, by decide +kernel⟩

theorem quiet_rig : RigSound quiet := rigSound_of (by decide +kernel) (by decide +kernel) (by decide +kernel)

/-- A MOVING, a STOPPING, an ARMING and a DWELL rig whose claimer falls silent at the next expiry. -/
theorem witness_ExpiryReachesTheRest_late :
    (RigSound quiet ∧ (quiet.flight 0).state = .moving ∧
      (quiet.flight 0).active.any (fun a => decide (a.pos ≤ a.pathLen)) = true) ∧
    (RigSound (fallingSilent stopping) ∧ ((fallingSilent stopping).flight 0).state = .stopping ∧
      ((fallingSilent stopping).flight 0).active.any (·.aStop == some 16) = true) ∧
    (RigSound (fallingSilent arming) ∧ ((fallingSilent arming).flight 0).armTimer = some 100) ∧
    let counting := fallingSilent (dwelling.updFlight 0 fun r => { r with dwell := some 2 })
    (RigSound counting ∧ (counting.flight 0).state = .dwell ∧ (counting.flight 0).dwell = some 2) ∧
    RigSound (fallingSilent held) ∧ ((fallingSilent held).flight 0).state = .held ∧
    (let last := (fallingSilent arming).updFlight 0 fun r => { r with armTimer := some 1 }
     RigSound last ∧ (last.flight 0).armTimer = some 1 ∧ (last.flight 0).members = [] ++ 0 :: [1] ∧ (last.axis 0).state = .releasing) ∧
    (RigSound (fallingSilent dwelling) ∧ ((fallingSilent dwelling).flight 0).dwell = some 1) ∧
    ∀ s ∈ [quiet, fallingSilent stopping, fallingSilent arming, counting, fallingSilent held, fallingSilent dwelling],
      s.timerRunning = true ∧ (s.flight 0).claim = some .a ∧ s.silents.get .a = false ∧ 249 ≤ (s.port .a).silence :=
  ⟨⟨quiet_rig, by decide +kernel⟩,
   ⟨rigSound_of (by decide +kernel) (by decide +kernel) (by decide +kernel), by decide +kernel⟩,
   ⟨rigSound_of (by decide +kernel) (by decide +kernel) (by decide +kernel), by decide +kernel⟩,
   ⟨rigSound_of (by decide +kernel) (by decide +kernel) (by decide +kernel), by decide +kernel⟩,
   rigSound_of (by decide +kernel) (by decide +kernel) (by decide +kernel), by decide +kernel,
   ⟨rigSound_of (by decide +kernel) (by decide +kernel) (by decide +kernel), by decide +kernel⟩,
   ⟨rigSound_of (by decide +kernel) (by decide +kernel) (by decide +kernel), by decide +kernel⟩, by decide +kernel⟩

/-- A HELD flight, and a dwell of 1, whose claimer does not fall silent. -/
theorem witness_ExpiryReachesTheRest_held :
    (RigSound held ∧ (held.flight 0).state = .held) ∧ (RigSound dwelling ∧ (dwelling.flight 0).dwell = some 1) ∧
      ∀ s ∈ [held, dwelling], s.timerRunning = true ∧ (s.flight 0).claim = some .a ∧ (s.port .a).silence < 249 :=
  ⟨⟨rigSound_of (by decide +kernel) (by decide +kernel) (by decide +kernel), by decide +kernel⟩,
   ⟨rigSound_of (by decide +kernel) (by decide +kernel) (by decide +kernel), by decide +kernel⟩, by decide +kernel⟩

theorem witness_SetPointsStayBetween :
    let act : Active := { activeOf [rope .following 0x20 1000000, rope .following 0x21 2000000] 64 (bounce .go) false with pos := 320 }
    act.pathLen = pathLength (displacements act.seg act.starts) ∧ 0 < act.pathLen ∧ act.pos ≤ act.pathLen ∧
      act.starts[1]? = some 2000000 ∧ act.seg.target 1 = some 1999985 ∧ 16 * (20 : Int).natAbs = act.pathLen := by decide +kernel

/-! #### Holds, trips and recovery -/

theorem witness_HoldTable : moving.resetAsserted = false ∧ 6 ≤ (6 : Byte).toNat ∧ NamesFlight 5 5 :=
  ⟨by decide +kernel, by decide, rfl⟩

theorem witness_TripTable : moving.resetAsserted = false ∧ (6 ≤ (254 : Byte).toNat ∧ (254 : Byte) ≠ 0xFF) ∧ NamesFlight 5 5 :=
  ⟨by decide +kernel, by decide, rfl⟩

/-- HELD with an active segment, with a dwell, and with neither. -/
theorem witness_ResumeGoesOn :
    (Drives moving ∧ (moving.flight 0).state ≠ .held) ∧ (Drives held ∧ (held.flight 0).state = .held ∧
      (held.flight 0).active = none ∧ (held.flight 0).dwell = none) ∧
      ((after (.hold .b 0) dwelling).flight 0).dwell = some 1 ∧
      ((after .stepExpiry (after (.hold .b 0) (expiries 4 moving))).flight 0).active.isSome = true :=
  ⟨⟨drives_of (by decide +kernel), by decide +kernel⟩, ⟨drives_of (by decide +kernel), by decide +kernel⟩, by decide +kernel⟩

theorem witness_CancelRule : Drives held ∧ (held.flight 0).state = .held ∧ NamesFlight 5 5 :=
  ⟨drives_of (by decide +kernel), by decide +kernel, rfl⟩

/-- TRIPPED with clean drives, with a stored FAULT, and with a missed streak of 3. -/
theorem witness_ResetFlightParks :
    (Drives held ∧ (held.flight 0).state ≠ .tripped) ∧ (Drives tripped ∧ (tripped.flight 0).state = .tripped ∧
      ∀ n ∈ (tripped.flight 0).members, (tripped.axis n).driveStatus = none ∧ (tripped.axis n).missedStreak = 0) ∧
      (0x40 : Byte).getLsbD 6 = true ∧
      ((tripped.updAxis 1 fun a => { a with missedStreak := 3 }).axis 1).missedStreak = 3 :=
  ⟨⟨drives_of (by decide +kernel), by decide +kernel⟩, ⟨drives_of (by decide +kernel), by decide +kernel⟩, by decide +kernel⟩

/-! #### The axis bus -/

/-- The write and the read of AX0 due, and a write in progress, discarded or not. -/
theorem witness_WritesOnTheBus :
    ((after .stepExpiry arming).resetAsserted = false ∧ (after .stepExpiry arming).exchange = none ∧
      (after .stepExpiry arming).turn = some { axis := 0, kind := .write } ∧
      ((after .stepExpiry arming).axis 0).params = some (params 0x20) ∧
      (after .writeComplete writing).turn = some { axis := 0, kind := .read }) ∧
    writing.resetAsserted = false ∧
    writing.exchange = some { axis := 0, kind := .write, address := 0x20#7, discarded := false,
                              bytes := 0x40 :: wordBytes 1000000 ++ [0x80, 0xEE] } := by decide +kernel

/-- A due exchange with a held line, a write and a read in progress; a bad check byte; a discarded exchange. -/
theorem witness_MissesCount :
    ((after .stepExpiry arming).exchange = none ∧ (after .stepExpiry arming).turn = some { axis := 0, kind := .write }) ∧
      writing.exchange.any (fun e => decide (e.kind = .write ∧ e.discarded = false)) = true ∧
      reading.exchange.any (fun e => decide (e.kind = .read ∧ e.discarded = false)) = true ∧
      (0 : Byte) ≠ ~~~ (wordBytes 0 ++ [0]).sum ∧
      (writing.exchange.map (discardFor 0)).any (·.discarded) = true := by decide +kernel

/-- The read of a RELEASING axis in progress. -/
theorem witness_ReadsAreJudged :
    reading.resetAsserted = false ∧ reading.exchange.any (fun e => decide (e.kind = .read ∧ e.discarded = false ∧ e.axis = 0)) = true ∧
      (reading.axis 0).params = some (params 0x20) ∧ (reading.axis 0).state ≠ .unconfigured := by decide +kernel

/-- The read of a RELEASING axis that finds FAULT, and a STOP right behind it that trips the flight with the axis FAULTED. -/
theorem witness_ReadsAreJudged_behind :
    let faulted := (reading.updAxis 0 fun a => { a with state := .faulted, faultCause := some .driveFault })
    readVerdict (reading.axis 0) (params 0x20) 1000000 true false = some .driveFault ∧ (reading.axis 0).flight = some 0 ∧
      (reading.axis 0).released = true ∧ (reading.flight 0).state ≠ .tripped ∧
      ((after (.stop .c 0xFF) faulted).flight 0).state = .tripped ∧
      ((after (.stop .c 0xFF) faulted).flight 0).tripCause = some (.stationStop .c) := by decide +kernel

/-! #### The tension scanner -/

/-- Settings at the ends of their ranges, and a slot and a mode just outside. -/
theorem witness_ScannerSettings :
    parked.resetAsserted = false ∧ (slotSettingsOf 7 1 4095 0x0FFF 0xF001 0xF001 Slot.reset).isSome = true ∧
      slotSettingsOf 8 1 0 0 0 0 Slot.reset = none ∧ slotSettingsOf 0 2 0 0 0 0 Slot.reset = none ∧
      slotSettingsOf 0 0 4096 0 0 0 Slot.reset = none ∧ slotSettingsOf 0 0 0 0 1 0 Slot.reset = none ∧
      parked.scanState = .stopped := by decide +kernel

/-- The scanner STOPPED for INJECT, SCANNING slot 7 for a conversion, with no link or one SLACK link on the slot. -/
theorem witness_ResultsAreJudged :
    slotted.resetAsserted = false ∧ (2 : Byte).toNat = (2 : SlotId).val ∧ slotted.scanState = .stopped ∧
      NoLinkOn (.slot 2) slotted ∧
      SoleLink 3 { source := .slot 2, cond := .slackEdge, action := .tripFlight 0 } (after (.setLink .c 3 0x12 0x06 0x02 0x00) slotted) ∧
      ({ source := .slot 2, cond := .slackEdge, action := .tripFlight 0 } : Link).Requests ∧
      ({ slotted with scanState := .scanning 7 } : State).scanState = .scanning 7 :=
  ⟨by decide +kernel, by decide, by decide +kernel,
   (fun i l hl => by
    have none : ∀ i, slotted.link i = none := by decide +kernel
    rw [none i] at hl; cases hl),
   onlyLink (by decide +kernel) (by decide +kernel), nofun, rfl⟩

/-- A result that makes OVER true, one that makes UNDER true and one that gives a slack edge, for a link on each. -/
theorem witness_ResultsAreJudged_acts :
    let judged (s : State) (raw : Half) := ((after (.inject .c 2 raw) s).slot 2)
    Condition.overLimit.OnResult (slotted.slot 2) (judged slotted 4000) ∧
      Condition.underLimit.OnResult (slotted.slot 2) (judged slotted 100) ∧
      Condition.slackEdge.OnResult ((after (.inject .c 2 1000) slotted).slot 2) (judged (after (.inject .c 2 1000) slotted) 500) ∧
      ¬Condition.overLimit.OnResult (slotted.slot 2) (judged slotted 1000) := by
  simp only [← resultOccurs_iff]; decide +kernel

/-- A slot number just outside, and a scanner that is not STOPPED. -/
theorem witness_ResultsAreJudged_refused :
    (slotted.resetAsserted = false ∧ 8 ≤ (8 : Byte).toNat) ∧ (7 : Byte).toNat < 8 ∧
      ({ slotted with scanState := .scanning 7 } : State).scanState ≠ .stopped := by decide +kernel

/-! #### Reflex links and sense lines -/

/-- A link number just outside, codes that no link has, and codes of a link that its action does not allow; links with each
action, whose codes decode, written over an entry out of use, and over an ENABLE_STATION link. -/
theorem witness_SetLinkWrites :
    (24 ≤ (24 : Byte).toNat ∧ linkFieldsOf 0x18 2 1 0xFF = none ∧ linkFieldsOf 0 0 5 0 = none) ∧
    (enabling.resetAsserted = false ∧
      enabling.link 23 = some { source := .line 15, cond := .low, action := .enableStation .a }) ∧
    parked.resetAsserted = false ∧ (23 : Byte).toNat = (23 : LinkId).val ∧ parked.link 23 = none ∧
      ∀ act ∈ [Action.holdFlight 5, .holdAll, .tripFlight 0, .tripAll, .enableStation .c],
        Condition.fits .high (.line 15) = true ∧ act.allows .high = true ∧
        act.allows .overLimit = true ∧ (Condition.fits .overLimit (.slot 7)) = true ∧
        Action.allows (.cueFlight 5) .rise = true := by decide +kernel

/-- An ENABLE_STATION link, another link, and a link number just outside; the one link of a line with a pending level, with its
filter off, and unsettled; the one link of a slot. -/
theorem witness_EnablesComputedAgain :
    ((persisting parked).resetAsserted = false ∧ 24 ≤ (24 : Byte).toNat ∧ (23 : Byte).toNat = (23 : LinkId).val ∧
      enabling.link 23 = some { source := .line 15, cond := .low, action := .enableStation .a }) ∧
    (enabling.resetAsserted = false ∧
      SoleLink 23 { source := .line 15, cond := .low, action := .enableStation .a } enabling ∧
      (enabling.line 15).filterOn = true ∧ (enabling.line 15).filtered = some .low ∧
      (enabling.line 15).pending = some .high) ∧
    (let off := enabling.updLine 15 fun l => { l with raw := .low, filterOn := false, pending := none }
     (off.line 15).filterOn = false ∧ (off.line 15).filtered = some .low ∧ (off.line 15).raw ≠ .high) ∧
    ((enabling.updLine 15 fun l => { l with filtered := none }).line 15).filtered = none ∧
    let weighed := (slotted.setLink 0 (some { source := .slot 2, cond := .underLimit, action := .enableStation .b }))
    SoleLink 0 { source := .slot 2, cond := .underLimit, action := .enableStation .b } weighed ∧
      (2 : Byte).toNat = (2 : SlotId).val ∧ weighed.scanState = .stopped ∧ weighed.resetAsserted = false ∧
      ({ weighed with scanState := .scanning 2 } : State).scanState = .scanning 2 ∧
      ((after (.inject .c 2 100) weighed).slot 2).isUnder ≠ (weighed.slot 2).isUnder :=
  ⟨by decide +kernel,
   ⟨by decide +kernel, onlyLink (by decide +kernel) (by decide +kernel), by decide +kernel, by decide +kernel,
    by decide +kernel⟩,
   by decide +kernel, by decide +kernel, onlyLink (by decide +kernel) (by decide +kernel), by decide, by decide +kernel,
   by decide +kernel, by decide +kernel, by decide +kernel⟩

/-- The e-stop chain of 09, section 9.3: SNS0 falls, which enables Station A while HIGH and trips all on LOW. -/
theorem witness_EnablesComputedAgain_eStop :
    let chain := ((moving.setLink 6 (some { source := .line 0, cond := .low, action := .tripAll })).setLink 1
      (some { source := .line 0, cond := .high, action := .enableStation .a })).updLine 0 fun l =>
        { l with filtered := some .high, pending := some .low }
    chain.resetAsserted = false ∧ (chain.line 0).filterOn = true ∧ (chain.line 0).filtered = some .high ∧
      (chain.line 0).pending = some .low ∧ chain.link 6 = some { source := .line 0, cond := .low, action := .tripAll } ∧
      chain.link 1 = some { source := .line 0, cond := .high, action := .enableStation .a } ∧
      (∀ k, k ≠ 6 → k ≠ 1 → chain.link k = none) ∧ (chain.flight 0).claim = some .a ∧ chain.enables.get .a = true := by
  decide +kernel

/-- A settled line with its filter on and off, a pending level, and an unsettled line with one link on it. -/
theorem witness_SenseLinesFilter :
    (settled.resetAsserted = false ∧ (settled.line 0).raw ≠ .high ∧ (settled.line 0).filtered = some .low ∧
      (settled.line 0).filterOn = true ∧
      ((after (.readLines .a (some 0xFFFE)) settled).line 0).filterOn = false) ∧
    ((changing.line 0).pending = some .high ∧ ∀ i, changing.link i = none) ∧
    (parked.line 15).filtered = none ∧
    SoleLink 0 { source := .line 15, cond := .high, action := .tripFlight 0 }
      (parked.setLink 0 (some { source := .line 15, cond := .high, action := .tripFlight 0 })) :=
  ⟨by decide +kernel, by decide +kernel, by decide +kernel, onlyLink (by decide +kernel) (by decide +kernel)⟩

/-- A raw change of an unsettled line, with its filter on; and with its filter off, with no link on it and with one. -/
theorem witness_SenseLinesFilter_unsettled :
    (parked.resetAsserted = false ∧ (parked.line 15).raw ≠ .high ∧ (parked.line 15).filtered = none ∧
      (parked.line 15).filterOn = true) ∧
    let off := parked.updLine 15 fun l => { l with filterOn := false }
    let l : Link := { source := .line 15, cond := .high, action := .tripFlight 0 }
    ((off.line 15).raw ≠ .high ∧ (off.line 15).filtered = none ∧ (off.line 15).filterOn = false ∧
      (∀ i, off.link i = none)) ∧ ((off.setLink 0 (some l)).line 15).raw ≠ .high ∧
      ((off.setLink 0 (some l)).line 15).filtered = none ∧ ((off.setLink 0 (some l)).line 15).filterOn = false ∧
      SoleLink 0 l (off.setLink 0 (some l)) :=
  ⟨by decide +kernel, by decide +kernel, by decide +kernel, by decide +kernel, by decide +kernel,
   onlyLink (by decide +kernel) (by decide +kernel)⟩

/-- The two levels of a line, and each condition that an accepted change or a settling at them makes occur. -/
theorem witness_SenseLinesFilter_acts :
    (Condition.rise.OnChange .high ∧ Condition.high.OnChange .high ∧ Condition.fall.OnChange .low ∧ Condition.low.OnChange .low ∧
      Condition.low.OnSettling .low ∧ ¬Condition.fall.OnSettling .low) ∧
    (∀ act ∈ [Action.holdFlight 0, .holdAll, .tripFlight 0, .tripAll, .cueFlight 5],
      ∀ u, act ≠ .enableStation u) ∧
    let l : Link := { source := .line 0, cond := .rise, action := .tripAll }
    SoleLink 7 l (changing.setLink 7 (some l)) ∧ l.Requests ∧ ((changing.setLink 7 (some l)).line 0).pending = some .high ∧
      ((changing.setLink 7 (some l)).line 0).filtered = some .low := by
  refine ⟨by simp [Condition.OnChange, Condition.OnSettling], by simp, onlyLink (by decide +kernel) (by decide +kernel), nofun,
    by decide +kernel⟩

/-! #### Reads and ports -/

theorem witness_StatusReports : parked.resetAsserted = false := by decide +kernel

/-- Numbers that name no flight and no axis; a flight with and without an active segment; an axis with and without parameters. -/
theorem witness_ReadsReportRecords :
    (parked.resetAsserted = false ∧ 6 ≤ (6 : Byte).toNat ∧ 12 ≤ (12 : Byte).toNat) ∧
    NamesFlight 0 0 ∧ moving.resetAsserted = false ∧
      (moving.flight 0).active.any (fun a => decide (a.pathLen < 2 ^ 32 ∧ a.pos < 2 ^ 32)) = true ∧
      (parked.flight 0).active = none ∧ (11 : Byte).toNat = (11 : AxisId).val ∧ (parked.axis 11).params = none ∧
      (parked.axis 0).params = some (params 0x20) :=
  ⟨by decide +kernel, rfl, by decide +kernel⟩

/-- No link on any line. -/
theorem witness_ReadsReportBlocks : parked.resetAsserted = false ∧ ∀ n, NoLinkOn (.line n) parked :=
  ⟨by decide +kernel, fun n i l hl => by
    have none : ∀ i, parked.link i = none := by decide +kernel
    rw [none i] at hl; cases hl⟩

/-- Filter enables that take line 0 off, whose raw level differs from its filtered level or is the same; an unsettled line. -/
theorem witness_ReadsReportBlocks_written :
    changing.resetAsserted = false ∧ (∀ i, changing.link i = none) ∧
      ((changing.line 0).filterOn = true ∧ (0xFFFE : Half).getLsbD 0 = false ∧ (changing.line 0).filtered = some .low ∧
        (changing.line 0).raw = .high) ∧ (changing.line 15).filtered = none ∧
      ((after (.readLines .a (some 0xFFFE)) changing).port .b).change[(0 : LineId)] = true ∧
      ((after (.readLines .a (some 0xFFFE)) changing).port .a).change[(0 : LineId)] = false ∧
      (settled.line 0).filtered = some (settled.line 0).raw := by decide +kernel

/-- A KIND between two of the catalogue, a frame in assembly, a reply in progress. -/
theorem witness_PortEvents :
    parked.resetAsserted = false ∧ (0x03 : Byte) ∉ requestKinds ∧
      ((after (.byteReceived .a 0xA5 true) parked).port .a).stage ≠ .hunting ∧
      ((after (.status .a) parked).port .a).tx ≠ .idle := by decide +kernel

/-- The STATUS frame before its last byte, its KIND byte and its length byte; LENGTH 200 and 201. -/
theorem witness_ReceiverStages :
    let upTo (n : Nat) := ([0xA5, 0x01, 0x40, 0x66].take n).foldl (fun s b => after (.byteReceived .a b true) s) parked
    (upTo 1).resetAsserted = false ∧ ((upTo 1).port .a).stage = .length ∧ ((upTo 2).port .a).stage = .content ∧
      ((upTo 3).port .a).stage = .check ∧ ((upTo 3).port .a).assembly.crc = [] ∧
      ((upTo 4).port .a).assembly = { length := some 1, content := [0x40], crc := [0x66] } ∧
      (0x66#8 ++ 0xFA#8 : BitVec 16) = crc16 [1, 0x40] ∧ (0x66#8 ++ 0xFB#8 : BitVec 16) ≠ crc16 [1, 0x40] ∧
      200 < (201 : Byte).toNat := by decide +kernel

end Sys2Proof.Tests
end

section
namespace Sys2Proof.Machine

/-! ## What the path work makes of a flight's record, and of its members' -/

/-! ### Output lines behind several changes -/

/-- The output lines, and every flight's and axis's state, are as they were. -/
structure StatesKept (s t : State) : Prop where
  outputs : OutputsKept s t
  flights : ∀ f, (t.flight f).state = (s.flight f).state
  axes : ∀ n, (t.axis n).state = (s.axis n).state

/-- The output lines follow a change from s to t: driven anew, or left alone with the states they follow. -/
def OutputsTracked (s t : State) : Prop := OutputsDriven s t ∨ StatesKept s t

theorem StatesKept.refl (s : State) : StatesKept s s := ⟨⟨rfl, rfl, rfl⟩, fun _ => rfl, fun _ => rfl⟩

theorem StatesKept.trans {s t u : State} (h : StatesKept s t) (k : StatesKept t u) : StatesKept s u := by
  obtain ⟨⟨b1, s1, l1⟩, f1, a1⟩ := h
  obtain ⟨⟨b2, s2, l2⟩, f2, a2⟩ := k
  exact ⟨⟨b2.trans b1, s2.trans s1, l2.trans l1⟩, fun f => (f2 f).trans (f1 f), fun n => (a2 n).trans (a1 n)⟩

/-- Outputs driven behind changes that moved neither them nor a state are driven from the first state. -/
theorem StatesKept.driven {s t u : State} (h : StatesKept s t) (k : OutputsDriven t u) : OutputsDriven s u :=
  ⟨k.1, h.outputs.2.1 ▸ k.2.1, k.2.2⟩

theorem StatesKept.tracked {s t u : State} (h : StatesKept s t) (k : OutputsTracked t u) : OutputsTracked s u :=
  k.imp h.driven h.trans

theorem updFlight_statesKept {f : FlightId} {g : Flight → Flight} (s : State) (h : ∀ r, (g r).state = r.state) :
    StatesKept s (s.updFlight f g) := by
  refine ⟨⟨rfl, rfl, rfl⟩, fun k => ?_, fun _ => rfl⟩
  rw [State.updFlight_flight]; split
  · exact h _
  · rfl

theorem raiseFlight_statesKept (f : FlightId) (g : FlightNotices → FlightNotices) (s : State) :
    StatesKept s (raiseFlight f g s) := ⟨⟨rfl, rfl, rfl⟩, fun _ => rfl, fun _ => rfl⟩

/-! ### The start procedure -/

/-- A record that the start procedure makes active (02, R27, R34); `low` is the queue-low flag then. -/
def Flight.started (r : Flight) (rest : List Segment) (act : Active) : Flight :=
  { r with state := .moving, queue := rest, active := some act, queueLow := if rest = [] then true else r.queueLow }

/-- A record that the start procedure rejects (02, R33). -/
def Flight.rejected (r : Flight) (rest : List Segment) : Flight := { r with state := .ready, queue := rest }

/-- A waiting record passes the checks of a start (02, R31, R32). -/
def StartFits (s : State) (f : FlightId) (seg : Segment) : Prop :=
  TargetsFit s f seg ∧ (seg.loadCheck = true → LoadsFit s f)

@[simp] theorem rejectStart_flight_same (f : FlightId) (s : State) :
    (rejectStart f s).flight f = { s.flight f with state := .ready } := by
  unfold rejectStart
  split <;> rename_i h
  · simp [raiseReject, raiseFlight, ← h]
  · simp

@[simp] theorem rejectStart_axes (f : FlightId) (s : State) : (rejectStart f s).axes = s.axes := by
  unfold rejectStart; split <;> rfl

theorem rejectStart_tracked (f : FlightId) (s : State) : OutputsTracked s (rejectStart f s) := by
  unfold rejectStart; split
  · exact .inr (raiseFlight_statesKept _ _ _)
  · exact .inl (putFlightState_driven _ _ _)

@[simp] theorem activate_flight_same (f : FlightId) (seg : Segment) (byCue : Bool) (s : State) :
    (activate f seg byCue s).flight f =
      (s.flight f).started (s.flight f).queue (activeOf (s.memberAxes f) (s.flight f).holdDecel seg byCue) := by
  unfold activate Flight.started
  dsimp only
  split <;> rename_i h <;> simp_all

@[simp] theorem activate_axes (f : FlightId) (seg : Segment) (byCue : Bool) (s : State) :
    (activate f seg byCue s).axes = s.axes := by
  unfold activate; dsimp only; split <;> rfl

theorem activate_driven (f : FlightId) (seg : Segment) (byCue : Bool) (s : State) :
    OutputsDriven s (activate f seg byCue s) := by
  unfold activate
  dsimp only
  split <;> exact putFlightState_drivenFrom rfl

theorem startHead_empty {byCue : Bool} {f : FlightId} {s : State} (h : (s.flight f).queue = []) :
    startHead byCue f s = (s, .queueEmpty) := by
  simp [startHead, h]

/-- A head that fails a check is removed from the queue and rejected, with the code of the check (02, R31 to R33). -/
theorem startHead_refused {byCue : Bool} {f : FlightId} {s : State} {seg : Segment} {rest : List Segment}
    (queue : (s.flight f).queue = seg :: rest) (unfit : ¬StartFits s f seg) :
    (startHead byCue f s).1 = rejectStart f (s.updFlight f fun r => { r with queue := rest }) ∧
      ((startHead byCue f s).2 = .outOfLimits ∨ (startHead byCue f s).2 = .loadOutOfWindow) := by
  unfold startHead
  simp only [queue, memberAxes_queue, loadPasses_queue]
  split
  · exact ⟨rfl, .inl rfl⟩
  · rename_i fits
    rw [Bool.not_eq_false, targetsWithin_iff] at fits
    rw [if_pos]
    · exact ⟨rfl, .inr rfl⟩
    · simp only [StartFits, fits, true_and, Classical.not_imp, ← loadPasses_iff] at unfit
      simp [unfit.1, unfit.2]

theorem startHead_flight_fits {byCue : Bool} {f : FlightId} {s : State} {seg : Segment} {rest : List Segment}
    (queue : (s.flight f).queue = seg :: rest) (fits : StartFits s f seg) :
    (startHead byCue f s).1.flight f =
      (s.flight f).started rest (activeOf (s.memberAxes f) (s.flight f).holdDecel seg byCue) := by
  rw [startHead_taken queue fits.1 fits.2]
  simp [Flight.started]

theorem startHead_flight_unfit {byCue : Bool} {f : FlightId} {s : State} {seg : Segment} {rest : List Segment}
    (queue : (s.flight f).queue = seg :: rest) (unfit : ¬StartFits s f seg) :
    (startHead byCue f s).1.flight f = (s.flight f).rejected rest := by
  rw [(startHead_refused queue unfit).1]
  simp [Flight.rejected]

@[simp] theorem startHead_axes (byCue : Bool) (f : FlightId) (s : State) : (startHead byCue f s).1.axes = s.axes := by
  unfold startHead
  split
  · rfl
  · dsimp only; repeat' split
    all_goals simp

theorem startHead_tracked (byCue : Bool) (f : FlightId) (s : State) : OutputsTracked s (startHead byCue f s).1 := by
  have queued (rest : List Segment) := updFlight_statesKept (f := f) (g := fun r => { r with queue := rest }) s fun _ => rfl
  unfold startHead
  split
  · exact .inr (.refl _)
  · dsimp only; repeat' split
    · exact (queued _).tracked (rejectStart_tracked _ _)
    · exact (queued _).tracked (rejectStart_tracked _ _)
    · exact (queued _).tracked (.inl (activate_driven _ _ _ _))

/-! ### The follow decision -/

theorem followDecision_ready {f : FlightId} {s : State}
    (h : ∀ seg rest, (s.flight f).queue = seg :: rest → seg.start ≠ .follow) :
    followDecision f s = putFlightState f .ready s := by
  unfold followDecision
  split
  · rfl
  · rename_i seg rest queue; rw [if_neg (h seg rest queue)]

theorem followDecision_start {f : FlightId} {s : State} {seg : Segment} {rest : List Segment}
    (queue : (s.flight f).queue = seg :: rest) (follow : seg.start = .follow) :
    followDecision f s = (startHead false f s).1 := by
  simp [followDecision, queue, follow]

@[simp] theorem followDecision_axes (f : FlightId) (s : State) : (followDecision f s).axes = s.axes := by
  unfold followDecision
  repeat' split
  all_goals first | rfl | exact startHead_axes _ _ _

theorem followDecision_tracked (f : FlightId) (s : State) : OutputsTracked s (followDecision f s) := by
  unfold followDecision
  repeat' split
  · exact .inl (putFlightState_driven _ _ _)
  · exact startHead_tracked _ _ _
  · exact .inl (putFlightState_driven _ _ _)

/-! ### Completion -/

/-- A flight's record behind steps 1 to 4 of a completion (02, R35 to R37). -/
def Flight.closed (r : Flight) (act : Active) : Flight :=
  { r with active := none, queue := recycledQueue act r.queue, cueGate := gateBehind act r.cueGate }

@[simp] theorem recycleCopy_flight_same (f : FlightId) (act : Active) (s : State) :
    (recycleCopy f act.seg s).flight f = { s.flight f with queue := recycledQueue act (s.flight f).queue } := by
  unfold recycleCopy recycledQueue queueCapacity
  split
  · split <;> rename_i h <;> simp [*]
  · simp [*]

theorem recycleCopy_axes (f : FlightId) (seg : Segment) (s : State) : (recycleCopy f seg s).axes = s.axes := by
  unfold recycleCopy; repeat' split
  all_goals rfl

theorem gateAfter_eq (act : Active) (gate : CueGate) : gateAfter act gate = gateBehind act gate := by
  simp [gateAfter, gateBehind]

@[simp] theorem closeSegment_flight_same (f : FlightId) (act : Active) (s : State) :
    (closeSegment f act s).flight f = (s.flight f).closed act := by
  simp [closeSegment, Flight.closed, gateAfter_eq]

@[simp] theorem closeSegment_axes (f : FlightId) (act : Active) (s : State) : (closeSegment f act s).axes = s.axes := by
  simp [closeSegment, recycleCopy_axes]

theorem closeSegment_statesKept (f : FlightId) (act : Active) (s : State) : StatesKept s (closeSegment f act s) := by
  have copied : ∀ u : State, StatesKept u (recycleCopy f act.seg u) := by
    intro u; unfold recycleCopy; repeat' split
    · exact updFlight_statesKept u fun _ => rfl
    · exact raiseFlight_statesKept _ _ _
    · exact .refl _
  exact ((raiseFlight_statesKept _ _ _).trans (copied _)).trans (updFlight_statesKept _ fun _ => by rfl)

@[simp] theorem completeMoving_axes (f : FlightId) (act : Active) (s : State) :
    (completeMoving f act s).axes = s.axes := by
  unfold completeMoving; dsimp only; split
  · simp
  · exact closeSegment_axes f act s

theorem completeMoving_tracked (f : FlightId) (act : Active) (s : State) :
    OutputsTracked s (completeMoving f act s) := by
  unfold completeMoving; dsimp only; split
  · exact (closeSegment_statesKept _ _ _).tracked (followDecision_tracked _ _)
  · exact ((closeSegment_statesKept _ _ _).trans (updFlight_statesKept _ fun _ => by rfl)).tracked
      (.inl (putFlightState_driven _ _ _))

/-- A flight's record behind a completion in DWELL, or in HELD at the end of a path (02, R35 step 5; 05, R88). -/
def Flight.landed (r : Flight) (act : Active) (x : FlightState) : Flight :=
  { r.closed act with state := x, dwell := if act.seg.dwell = 0 then r.dwell else some act.seg.dwell }

theorem completeMoving_dwell {f : FlightId} {act : Active} {s : State} (h : act.seg.dwell ≠ 0) :
    (completeMoving f act s).flight f = (s.flight f).landed act .dwell := by
  simp [completeMoving, h, Flight.landed]

theorem completeMoving_follow {f : FlightId} {act : Active} {s : State} (h : act.seg.dwell = 0) :
    completeMoving f act s = followDecision f (closeSegment f act s) := by
  simp [completeMoving, h]

@[simp] theorem completeStopping_flight_same (f : FlightId) (act : Active) (s : State) :
    (completeStopping f act s).flight f = (s.flight f).landed act .held := by
  unfold completeStopping; dsimp only; split <;> rename_i h <;> simp [Flight.landed, Flight.closed, h]

@[simp] theorem completeStopping_axes (f : FlightId) (act : Active) (s : State) :
    (completeStopping f act s).axes = s.axes := by
  unfold completeStopping; dsimp only; split <;> exact closeSegment_axes f act s

theorem completeStopping_driven (f : FlightId) (act : Active) (s : State) :
    OutputsDriven s (completeStopping f act s) := by
  unfold completeStopping; dsimp only; split
  · exact (closeSegment_statesKept _ _ _).driven (putFlightState_driven _ _ _)
  · exact ((closeSegment_statesKept _ _ _).trans (updFlight_statesKept _ fun _ => by rfl)).driven
      (putFlightState_driven _ _ _)

/-! ### Advances -/

/-- From s to t nothing of an axis record has changed but set-points, and those of members of the flight alone (04, R64). -/
structure RopesMoved (f : FlightId) (s t : State) : Prop where
  axis : ∀ n, t.axis n = { s.axis n with setPoint := (t.axis n).setPoint }
  others : ∀ n, n ∉ (s.flight f).members → t.axis n = s.axis n

theorem RopesMoved.of_axes {f : FlightId} {s t : State} (h : t.axes = s.axes) : RopesMoved f s t := by
  have same (n : AxisId) : t.axis n = s.axis n := by simp [State.axis, h]
  exact ⟨fun n => by rw [same], fun n _ => same n⟩

theorem RopesMoved.then_axes {f : FlightId} {s t u : State} (h : RopesMoved f s t) (k : u.axes = t.axes) :
    RopesMoved f s u := by
  have same (n : AxisId) : u.axis n = t.axis n := by simp [State.axis, k]
  exact ⟨fun n => by rw [same]; exact h.axis n, fun n hn => (same n).trans (h.others n hn)⟩

@[simp] theorem writeSetPoints_flight (f h : FlightId) (act : Active) (s : State) :
    (writeSetPoints f act s).flight h = s.flight h := by
  unfold writeSetPoints; split <;> rfl

@[simp] theorem advance_flight_same (f : FlightId) (act : Active) (s : State) :
    (advance f act s).flight f = { s.flight f with active := some act } := by
  simp [advance]

theorem slotIn_none {members : List AxisId} {n : AxisId} (h : n ∉ members) : slotIn members n = none := by
  simp only [slotIn, List.findIdx?_eq_none_iff, decide_eq_false_iff_not]
  rintro m hm rfl
  exact h hm

theorem advance_ropes (f : FlightId) (act : Active) (s : State) : RopesMoved f s (advance f act s) := by
  unfold advance writeSetPoints
  split
  · exact .of_axes rfl
  · refine ⟨fun n => ?_, fun n hn => ?_⟩
    · rw [State.mapAxes_axis]
      dsimp only
      repeat' split
      all_goals rfl
    · rw [State.mapAxes_axis]
      simp [slotIn_none hn]

theorem advance_statesKept (f : FlightId) (act : Active) (s : State) : StatesKept s (advance f act s) := by
  refine ⟨?_, fun g => ?_, fun n => by rw [(advance_ropes f act s).axis n]⟩
  · unfold advance writeSetPoints
    split <;> exact ⟨rfl, rfl, rfl⟩
  · by_cases e : g = f
    · subst e; simp
    · rw [(advance_work f act s).others g e]

theorem movingStep_tracked (f : FlightId) (act : Active) (s : State) : OutputsTracked s (movingStep f act s) := by
  unfold movingStep; dsimp only; repeat' split
  · exact completeMoving_tracked _ _ _
  · exact (advance_statesKept _ _ _).tracked (completeMoving_tracked _ _ _)
  · exact .inr (advance_statesKept _ _ _)

theorem stoppingStep_tracked (f : FlightId) (act : Active) (s : State) : OutputsTracked s (stoppingStep f act s) := by
  unfold stoppingStep; dsimp only; repeat' split
  · exact .inl ((advance_statesKept _ _ _).driven (completeStopping_driven _ _ _))
  · exact .inl ((advance_statesKept _ _ _).driven (putFlightState_driven _ _ _))
  · exact .inr (advance_statesKept _ _ _)

theorem endDwell_axes (f : FlightId) (s : State) : (endDwell f s).axes = s.axes := by simp [endDwell]

theorem endDwell_tracked (f : FlightId) (s : State) : OutputsTracked s (endDwell f s) :=
  (updFlight_statesKept s fun _ => by rfl).tracked (followDecision_tracked _ _)

end Sys2Proof.Machine
end

section
namespace Sys2Proof.Machine

/-! ## What a command can do: every command is a run of few kinds of act -/

/-! ### Moves of one flight's record -/

/-- What the start procedure makes of a flight's record with a record waiting (02, R31 to R34); `ms` are the members' records. -/
inductive StartMove (ms : List Axis) (byCue : Bool) (r : Flight) : Flight → Prop
  | rejected (seg : Segment) (rest : List Segment) (queue : r.queue = seg :: rest) :
      StartMove ms byCue r (r.rejected rest)
  | started (seg : Segment) (rest : List Segment) (queue : r.queue = seg :: rest) :
      StartMove ms byCue r (r.started rest (activeOf ms r.holdDecel seg byCue))

/-- What the follow decision makes of a flight's record (02, R39). -/
inductive FollowMove (ms : List Axis) (r : Flight) : Flight → Prop
  | ready : FollowMove ms r { r with state := .ready }
  | start {r' : Flight} (h : StartMove ms false r r') : FollowMove ms r r'

/-- What one act makes of a flight's record without touching a brake, a member's state or the membership; `ms` are the members'
records behind the act. -/
inductive FlightMove (ms : List Axis) (r : Flight) : Flight → Prop
  | hold (cause : HoldCause) : FlightMove ms r (r.afterHold cause)
  | start {r' : Flight} {byCue : Bool} (ready : r.state = .ready) (h : StartMove ms byCue r r') : FlightMove ms r r'
  | resumeMoving (act : Active) (held : r.state = .held) (active : r.active = some act) :
      FlightMove ms r { r with state := .moving, active := some { act with speed := 0, aStop := none } }
  | resumeDwell (held : r.state = .held) (active : r.active = none) (dwell : r.dwell ≠ none) :
      FlightMove ms r { r with state := .dwell }
  | resumeReady (held : r.state = .held) (active : r.active = none) (dwell : r.dwell = none) :
      FlightMove ms r { r with state := .ready }
  | cancel (held : r.state = .held) : FlightMove ms r { r with state := .ready, active := none, dwell := none }
  | gate (g : CueGate) : FlightMove ms r { r with cueGate := g }
  | append (seg : Segment) (bound : r.state ≠ .free) (room : r.queue.length < 8) (fits : seg.InRange) :
      FlightMove ms r { r with queue := r.queue ++ [seg], queueLow := false }
  | flush : FlightMove ms r { r with queue := [] }
  | limits (decel : Nat) (lo hi : Int) (d : 1 ≤ decel ∧ decel ≤ 1024) (l : -4095 ≤ lo) (order : lo ≤ hi)
      (h : hi ≤ 4095) : FlightMove ms r { r with holdDecel := decel, loadMin := lo, loadMax := hi }
  | countDwell (d : Nat) (state : r.state = .dwell) (dwell : r.dwell = some d) (left : 1 < d) :
      FlightMove ms r { r with dwell := some (d - 1) }
  | endDwell {r' : Flight} (state : r.state = .dwell) (h : FollowMove ms { r with dwell := none } r') :
      FlightMove ms r r'
  | countArming (k : Nat) (state : r.state = .arming) (timer : r.armTimer = some k) :
      FlightMove ms r { r with armTimer := some (k - 1) }
  | advance (act : Active) (state : r.state = .moving) (active : r.active = some act) (left : act.pathLen - act.pos ≠ 0) :
      FlightMove ms r { r with active := some (act.advanced (movingSpeed act (act.pathLen - act.pos))) }
  | complete (act : Active) (state : r.state = .moving) (active : r.active = some act) (dwell : act.seg.dwell ≠ 0) :
      FlightMove ms r (r.landed act .dwell)
  | completeFollow {r' : Flight} (act : Active) (state : r.state = .moving) (active : r.active = some act)
      (dwell : act.seg.dwell = 0) (h : FollowMove ms (r.closed act) r') : FlightMove ms r r'
  | brake (act : Active) (state : r.state = .stopping) (active : r.active = some act) :
      FlightMove ms r { r with active := some (act.advanced (stoppingSpeed act)) }
  | stand (act : Active) (state : r.state = .stopping) (active : r.active = some act) (stands : stoppingSpeed act = 0) :
      FlightMove ms r { r with state := .held, active := some { act.advanced (stoppingSpeed act) with aStop := none } }
  | land (act : Active) (state : r.state = .stopping) (active : r.active = some act) :
      FlightMove ms r (r.landed act .held)

/-- From s to t: one act on a flight that leaves brakes, memberships and the states of axes alone. -/
structure Flown (f : FlightId) (s t : State) : Prop where
  move : FlightMove (t.memberAxes f) (s.flight f) (t.flight f)
  work : FlightWork f s t
  ropes : RopesMoved f s t
  still : (s.flight f).state ≠ .moving → (s.flight f).state ≠ .stopping → t.axes = s.axes
  outputs : OutputsTracked s t

/-! ### Moves of one axis's record -/

/-- What one act of the bus makes of an axis's record without a fault. -/
inductive AxisMove (a : Axis) : Axis → Prop
  | written (w : LastWrite) : AxisMove a { a with lastWrite := some w, writeStreak := 0 }
  | read (pos : Int) (status : Byte) :
      AxisMove a { a with missedStreak := 0, measured := some pos, driveStatus := some status }
  | confirmed (state : a.state = .releasing) : AxisMove a { a with state := .following }

/-- From s to t: one act on an axis that leaves everything else but the output lines alone. -/
structure AxisMoved (n : AxisId) (s t : State) : Prop where
  move : AxisMove (s.axis n) (t.axis n)
  others : ∀ m, m ≠ n → t.axis m = s.axis m
  flights : t.flights = s.flights
  slots : t.slots = s.slots
  outputs : OutputsTracked s t

/-! ### The acts -/

/-- From s to t no flight, axis, slot or output line has changed, but that the sounder's phase may have counted. -/
structure Quiet (s t : State) : Prop where
  flights : t.flights = s.flights
  axes : t.axes = s.axes
  slots : t.slots = s.slots
  brakes : t.brakes = s.brakes
  faultLine : t.faultLine = s.faultLine
  sounder : t.sounder = s.sounder ∨ t.sounder = s.sounder.tick

/-- The checks of an accepted BIND behind those of its fields and its claim (01, R7). -/
structure BindFits (f : FlightId) (ns : List AxisId) (s : State) : Prop where
  distinct : ns.Nodup
  some : ns ≠ []
  few : ns.length ≤ 4
  state : (s.flight f).state = .free ∨ (s.flight f).state = .parked
  unbound : ∀ n ∈ ns, (s.axis n).flight = none ∨ (s.axis n).flight = Option.some f
  configured : ∀ n ∈ ns, (s.axis n).state ≠ .unconfigured
  sound : ∀ n ∈ ns, (s.axis n).state ≠ .faulted

/-- The checks of an accepted CONFIGURE-AXIS (01, R5). -/
structure ConfigureFits (n : AxisId) (p : AxisParams) (s : State) : Prop where
  range : p.InRange
  parked : ∀ f, (s.axis n).flight = some f → (s.flight f).state = .parked
  fresh : addressTaken n p.address s = false
  streak : (s.axis n).missedStreak ≠ 3

/-- One act: the least that a command does between two states in which the invariants of the part hold. The one act missing here
is the release of brakes, `armFlight`. -/
inductive Act : State → State → Prop
  | quiet {s t : State} (h : Quiet s t) : Act s t
  | fly (f : FlightId) {s t : State} (h : Flown f s t) : Act s t
  | trip (f : FlightId) (cause : TripCause) (s : State) : Act s (tripFlight f cause s)
  | abort (f : FlightId) (cause : HoldCause) (s : State) : Act s (abortArming f cause s)
  | park (f : FlightId) (s : State) (h : (s.flight f).state = .ready ∨ (s.flight f).state = .held) :
      Act s (parkFlight f s)
  | resetFlight (f : FlightId) (s : State) (tripped : (s.flight f).state = .tripped)
      (streaks : ∀ n ∈ (s.flight f).members, (s.axis n).missedStreak ≠ 3) : Act s (resetTripped f s)
  | fault (n : AxisId) (cause : FaultCause) (s : State) : Act s (faultAxis n cause s)
  | miss (n : AxisId) (kind : ExchangeKind) (s : State) : Act s (countMiss n kind s)
  | axis (n : AxisId) {s t : State} (h : AxisMoved n s t) : Act s t
  | track (n : AxisId) (pos : Int) (s : State) (braked : (s.axis n).state = .braked) (tracks : tracks s n = true) :
      Act s (s.updAxis n fun a => { a with setPoint := pos })
  | confirm (n : AxisId) (s : State) : Act s (confirmArming n s)
  | claim (f : FlightId) (st : Station) (s : State) : Act s (setClaim f (some st) s)
  | release (f : FlightId) (s : State) (allowed : (s.flight f).state.allowsRelease = true) : Act s (setClaim f none s)
  | bind (f : FlightId) (ns : List AxisId) (s : State) (h : BindFits f ns s) : Act s (bindMembers f ns s)
  | unbind (f : FlightId) (s : State) (parked : (s.flight f).state = .parked) : Act s (unbindMembers f s)
  | configure (n : AxisId) (p : AxisParams) (s : State) (h : ConfigureFits n p s) : Act s (configureAxis n p s)
  | slot (k : SlotId) (r : Slot) (s : State) (range : (s.slot k).InRange → r.InRange) :
      Act s (s.updSlot k fun _ => r)
  | reset (s : State) : Act s (assertReset s)

/-- A run of acts. -/
def Acts : State → State → Prop := Relation.ReflTransGen Act

theorem Acts.refl (s : State) : Acts s s := Relation.ReflTransGen.refl

theorem Acts.trans {s t u : State} (h : Acts s t) (k : Acts t u) : Acts s u := Relation.ReflTransGen.trans h k

theorem Act.acts {s t : State} (h : Act s t) : Acts s t := Relation.ReflTransGen.single h

/-- An invariant that each act keeps is kept by a run of them. -/
theorem Acts.keeps {P : State → Prop} (act : ∀ s t, Act s t → P s → P t) {s t : State} (h : Acts s t) (hs : P s) : P t := by
  induction h with
  | refl => exact hs
  | tail _ one ih => exact act _ _ one ih

/-- The checks of an accepted ARM (01, R12). -/
structure ArmFits (st : Station) (f : FlightId) (s : State) : Prop where
  claim : (s.flight f).claim = some st
  may : s.mayStart st = true
  parked : (s.flight f).state = .parked
  clear : s.persists f = false

/-- From s to t a station's ARM is taken, and nothing else happens but to the ports and station flags before it. -/
def ArmTaken (s t : State) : Prop :=
  ∃ st f u v kind ans, Quiet s u ∧ ArmFits st f u ∧ t = startReply v kind ans (armFlight f u)

/-! ### Quiet changes -/

theorem Quiet.refl (s : State) : Quiet s s := ⟨rfl, rfl, rfl, rfl, rfl, .inl rfl⟩

theorem Quiet.acts {s t : State} (h : Quiet s t) : Acts s t := (Act.quiet h).acts

/-- A quiet change that leaves the sounder alone, before another quiet change. -/
theorem Quiet.before {s t u : State} (h : Quiet s t) (same : t.sounder = s.sounder) (k : Quiet t u) : Quiet s u := by
  obtain ⟨f, a, l, b, o, x⟩ := h
  obtain ⟨f', a', l', b', o', x'⟩ := k
  exact ⟨f'.trans f, a'.trans a, l'.trans l, b'.trans b, o'.trans o, same ▸ x'⟩

theorem startReply_quiet (st : Station) (kind : Byte) (ans : Answer) (s : State) : Quiet s (startReply st kind ans s) :=
  ⟨rfl, rfl, rfl, rfl, rfl, .inl rfl⟩

theorem markHeard_quiet (st : Station) (s : State) : Quiet s (markHeard st s) := ⟨rfl, rfl, rfl, rfl, rfl, .inl rfl⟩

theorem updPort_quiet (st : Station) (g : Port → Port) (s : State) : Quiet s (s.updPort st g) :=
  ⟨rfl, rfl, rfl, rfl, rfl, .inl rfl⟩

theorem mapPorts_quiet (g : Port → Port) (s : State) : Quiet s (s.mapPorts g) := ⟨rfl, rfl, rfl, rfl, rfl, .inl rfl⟩

theorem setLink_quiet (i : LinkId) (l : Option Link) (s : State) : Quiet s (s.setLink i l) :=
  ⟨rfl, rfl, rfl, rfl, rfl, .inl rfl⟩

theorem updLine_quiet (n : LineId) (g : SenseLine → SenseLine) (s : State) : Quiet s (s.updLine n g) :=
  ⟨rfl, rfl, rfl, rfl, rfl, .inl rfl⟩

theorem setEnable_quiet (st : Station) (b : Bool) (s : State) : Quiet s (s.setEnable st b) :=
  ⟨rfl, rfl, rfl, rfl, rfl, .inl rfl⟩

theorem freeIndex_quiet (k : Nat) (s : State) : Quiet s { s with freeIndex := k } := ⟨rfl, rfl, rfl, rfl, rfl, .inl rfl⟩

theorem passTurn_quiet (x : Turn) (s : State) : Quiet s (passTurn x s) := by
  rw [passTurn_frame]; exact ⟨rfl, rfl, rfl, rfl, rfl, .inl rfl⟩

/-! ### Runs of effects -/

theorem Acts.foldl {α : Type} (l : List α) (step : State → α → State) (h : ∀ s, ∀ a ∈ l, Acts s (step s a)) (s : State) :
    Acts s (l.foldl step s) := by
  induction l generalizing s with
  | nil => exact .refl _
  | cons a l ih =>
    exact (h s a List.mem_cons_self).trans (ih (fun t b hb => h t b (List.mem_cons_of_mem _ hb)) _)

theorem takeInAnyOrder_acts {α : Type} (l : List α) (act : α → State → State) (h : ∀ a ∈ l, ∀ s, Acts s (act a s))
    (s : State) : Acts s (takeInAnyOrder l act s) :=
  takeInAnyOrder_keeps (Acts s) l act s (fun t k ht => ht.trans (freeIndex_quiet k t).acts)
    (fun a ha t ht => ht.trans (h a ha t)) (.refl s)

/-! ### Acts on one flight's record alone -/

/-- A flight record rewritten by a move that keeps its state. -/
theorem updFlight_flown {f : FlightId} {g : Flight → Flight} {s : State}
    (move : FlightMove (s.memberAxes f) (s.flight f) (g (s.flight f))) (state : ∀ r, (g r).state = r.state)
    (members : (g (s.flight f)).members = (s.flight f).members) : Flown f s (s.updFlight f g) where
  move := by
    have same : (s.updFlight f g).memberAxes f = s.memberAxes f := by
      unfold State.memberAxes
      rw [State.updFlight_flight_same, members]
      rfl
    rw [same, State.updFlight_flight_same]
    exact move
  work := updFlight_work _ _ _
  ropes := .of_axes rfl
  still _ _ := rfl
  outputs := .inr (updFlight_statesKept s state)

theorem memberAxes_congr {f : FlightId} {s t : State} (members : (t.flight f).members = (s.flight f).members)
    (axes : t.axes = s.axes) : t.memberAxes f = s.memberAxes f := by
  unfold State.memberAxes State.axis; rw [members, axes]

/-- A flight whose state changes with its record, its axes untouched. -/
theorem putFlightState_flown {f : FlightId} {x : FlightState} {g : Flight → Flight} {s : State}
    (move : FlightMove (s.memberAxes f) (s.flight f) { g (s.flight f) with state := x })
    (members : (g (s.flight f)).members = (s.flight f).members) :
    Flown f s (putFlightState f x (s.updFlight f g)) where
  move := by
    have same : (putFlightState f x (s.updFlight f g)).memberAxes f = s.memberAxes f :=
      memberAxes_congr (by simpa using members) rfl
    rw [same]
    simpa using move
  work := (updFlight_work _ _ _).trans (putFlightState_work _ _ _)
  ropes := .of_axes rfl
  still _ _ := rfl
  outputs := .inl (putFlightState_drivenFrom rfl)

theorem holdFlight_flown (f : FlightId) (cause : HoldCause) (s : State) : Flown f s (holdFlight f cause s) where
  move := by rw [holdFlight_flight_same]; exact .hold cause
  work := holdFlight_work _ _ _
  ropes := .of_axes (holdFlight_axes _ _ _)
  still _ _ := holdFlight_axes _ _ _
  outputs := by
    unfold holdFlight
    split
    case h_1 | h_2 | h_3 | h_4 | h_5 => exact .inr (.refl _)
    case h_6 | h_7 => exact .inl (putFlightState_drivenFrom rfl)
    case h_8 | h_9 => exact .inr (updFlight_statesKept s fun _ => by rfl)

theorem holdFlight_acts (f : FlightId) (cause : HoldCause) (s : State) : Acts s (holdFlight f cause s) :=
  (Act.fly f (holdFlight_flown f cause s)).acts

/-- The start procedure on a flight with a record waiting makes a start's move. -/
theorem startHead_move {byCue : Bool} {f : FlightId} {s : State} (waiting : (s.flight f).queue ≠ []) :
    StartMove (s.memberAxes f) byCue (s.flight f) ((startHead byCue f s).1.flight f) := by
  cases queue : (s.flight f).queue with
  | nil => exact absurd queue waiting
  | cons seg rest =>
    by_cases fits : StartFits s f seg
    · rw [startHead_flight_fits queue fits]; exact .started seg rest queue
    · rw [startHead_flight_unfit queue fits]; exact .rejected seg rest queue

theorem StartMove.members {ms : List Axis} {byCue : Bool} {r r' : Flight} (h : StartMove ms byCue r r') :
    r'.members = r.members := by cases h <;> rfl

theorem FollowMove.members {ms : List Axis} {r r' : Flight} (h : FollowMove ms r r') : r'.members = r.members := by
  cases h with
  | ready => rfl
  | start h => exact h.members

theorem startHead_acts {byCue : Bool} {f : FlightId} {s : State} (ready : (s.flight f).state = .ready) :
    Acts s (startHead byCue f s).1 := by
  by_cases waiting : (s.flight f).queue = []
  · rw [startHead_empty waiting]; exact .refl _
  · have move := startHead_move (byCue := byCue) waiting
    refine (Act.fly f ⟨.start (byCue := byCue) ready ?_, startHead_work _ _ _, .of_axes (startHead_axes _ _ _),
      fun _ _ => startHead_axes _ _ _, startHead_tracked _ _ _⟩).acts
    rw [memberAxes_congr move.members (startHead_axes _ _ _)]
    exact move

theorem followDecision_move (f : FlightId) (s : State) :
    FollowMove (s.memberAxes f) (s.flight f) ((followDecision f s).flight f) := by
  unfold followDecision
  split
  · rw [putFlightState_flight_same]; exact .ready
  · rename_i queue
    split
    · exact .start (startHead_move (by simp [queue]))
    · rw [putFlightState_flight_same]; exact .ready

theorem endDwell_acts {f : FlightId} {s : State} (state : (s.flight f).state = .dwell) : Acts s (endDwell f s) := by
  have move := followDecision_move f (s.updFlight f fun r => { r with dwell := none })
  have before : (s.updFlight f fun r => { r with dwell := none }).memberAxes f = s.memberAxes f :=
    memberAxes_congr (by rw [State.updFlight_flight_same]) rfl
  rw [State.updFlight_flight_same, before] at move
  refine (Act.fly f ⟨.endDwell state ?_, endDwell_work _ _, .of_axes (endDwell_axes _ _), fun _ _ => endDwell_axes _ _,
    endDwell_tracked _ _⟩).acts
  have same : (endDwell f s).memberAxes f = s.memberAxes f :=
    memberAxes_congr move.members (endDwell_axes f s)
  rw [same]
  exact move

/-! ### The path work at an expiry -/

theorem completeMoving_acts {f : FlightId} {act : Active} {s : State} (state : (s.flight f).state = .moving)
    (active : (s.flight f).active = some act) : Acts s (completeMoving f act s) := by
  have move : FlightMove (s.memberAxes f) (s.flight f) ((completeMoving f act s).flight f) ∧
      ((completeMoving f act s).flight f).members = (s.flight f).members := by
    by_cases dwell : act.seg.dwell = 0
    · have closed : (closeSegment f act s).memberAxes f = s.memberAxes f :=
        memberAxes_congr (by rw [closeSegment_flight_same]; rfl) (closeSegment_axes f act s)
      have move := followDecision_move f (closeSegment f act s)
      rw [closeSegment_flight_same, closed] at move
      rw [completeMoving_follow dwell]
      exact ⟨.completeFollow act state active dwell move, move.members⟩
    · rw [completeMoving_dwell dwell]
      exact ⟨.complete act state active dwell, rfl⟩
  refine (Act.fly f ⟨?_, completeMoving_work _ _ _, .of_axes (completeMoving_axes _ _ _),
    fun _ _ => completeMoving_axes _ _ _, completeMoving_tracked _ _ _⟩).acts
  rw [memberAxes_congr move.2 (completeMoving_axes f act s)]
  exact move.1

theorem completeStopping_acts {f : FlightId} {act : Active} {s : State} (state : (s.flight f).state = .stopping)
    (active : (s.flight f).active = some act) : Acts s (completeStopping f act s) := by
  refine (Act.fly f ⟨?_, completeStopping_work _ _ _, .of_axes (completeStopping_axes _ _ _),
    fun _ _ => completeStopping_axes _ _ _, .inl (completeStopping_driven _ _ _)⟩).acts
  rw [completeStopping_flight_same]
  exact .land act state active

/-- An advance to the path state of `next`, as a move of the flight's record. -/
theorem advance_acts {f : FlightId} {next : Active} {s : State}
    (flying : (s.flight f).state = .moving ∨ (s.flight f).state = .stopping)
    (move : ∀ ms, FlightMove ms (s.flight f) { s.flight f with active := some next }) : Acts s (advance f next s) := by
  refine (Act.fly f ⟨?_, advance_work _ _ _, advance_ropes _ _ _, fun m t => ?_, .inr (advance_statesKept _ _ _)⟩).acts
  · rw [advance_flight_same]; exact move _
  · exact (flying.elim m t).elim

theorem movingStep_acts {f : FlightId} {act : Active} {s : State} (state : (s.flight f).state = .moving)
    (active : (s.flight f).active = some act) : Acts s (movingStep f act s) := by
  unfold movingStep; dsimp only; split
  · exact completeMoving_acts state active
  · rename_i left
    have advanced := advance_acts (next := act.advanced (movingSpeed act (act.pathLen - act.pos))) (.inl state)
      fun ms => .advance act state active left
    split
    · exact advanced.trans (completeMoving_acts (by simpa using state) (by simp))
    · exact advanced

theorem stoppingStep_acts {f : FlightId} {act : Active} {s : State} (state : (s.flight f).state = .stopping)
    (active : (s.flight f).active = some act) : Acts s (stoppingStep f act s) := by
  have advanced := advance_acts (next := act.advanced (stoppingSpeed act)) (.inr state) fun ms => .brake act state active
  unfold stoppingStep; dsimp only; split
  · exact advanced.trans (completeStopping_acts (by simpa using state) (by simp))
  · split
    · rename_i stands
      refine (Act.fly f ⟨?_, (advance_work _ _ _).trans (putFlightState_work _ _ _), (advance_ropes _ _ _).then_axes rfl,
        fun _ t => absurd state t, .inl ((advance_statesKept _ _ _).driven (putFlightState_driven _ _ _))⟩).acts
      rw [putFlightState_flight_same, advance_flight_same]
      exact .stand act state active stands
    · exact advanced

theorem dwellStep_acts {f : FlightId} {d : Nat} {s : State} (state : (s.flight f).state = .dwell)
    (dwell : (s.flight f).dwell = some d) : Acts s (dwellStep f d s) := by
  unfold dwellStep; split
  · exact endDwell_acts state
  · exact (Act.fly f (updFlight_flown (.countDwell d state dwell (by omega)) (fun _ => by rfl) (by rfl))).acts

theorem armingStep_acts {f : FlightId} {k : Nat} {s : State} (state : (s.flight f).state = .arming)
    (timer : (s.flight f).armTimer = some k) : Acts s (armingStep f k s) := by
  have counted : Acts s (s.updFlight f fun r => { r with armTimer := some (k - 1) }) :=
    (Act.fly f (updFlight_flown (.countArming k state timer) (fun _ => by rfl) (by rfl))).acts
  unfold armingStep; dsimp only; repeat' split
  · exact counted.trans (Act.trip _ _ _).acts
  · exact counted
  · exact counted

theorem pathStep_acts (f : FlightId) (s : State) : Acts s (pathStep f s) := by
  unfold pathStep
  split <;> rename_i state
  case h_1 => split; exacts [movingStep_acts state ‹_›, .refl _]
  case h_2 => split; exacts [stoppingStep_acts state ‹_›, .refl _]
  case h_3 => split; exacts [dwellStep_acts state ‹_›, .refl _]
  case h_4 => split; exacts [armingStep_acts state ‹_›, .refl _]
  all_goals exact .refl _

/-! ### The authority unit and the reflex table -/

theorem restrainFlight_acts (f : FlightId) (cause : HoldCause) (s : State) : Acts s (restrainFlight f cause s) := by
  unfold restrainFlight
  split
  case h_1 => exact (Act.abort _ _ _).acts
  all_goals exact holdFlight_acts _ _ _

theorem restrainClaimed_acts (st : Station) (cause : HoldCause) (s : State) : Acts s (restrainClaimed st cause s) :=
  Acts.foldl _ _ (fun t f _ => by split; exacts [restrainFlight_acts _ _ _, .refl _]) s

theorem recomputeEnable_acts (st : Station) (s : State) : Acts s (recomputeEnable st s) := by
  have stored := (setEnable_quiet st (enableOf s st) s).acts
  unfold recomputeEnable
  dsimp only
  split
  · exact stored.trans (restrainClaimed_acts _ _ _)
  · exact stored

theorem cueFlight_acts (f : FlightId) (s : State) : Acts s (cueFlight f s) := by
  unfold cueFlight
  dsimp only
  split
  · split
    · rename_i taken
      simp only [Bool.and_eq_true, decide_eq_true_eq] at taken
      exact startHead_acts taken.1.1.1.1
    · exact .refl _
  all_goals exact .refl _

theorem takeEffect_acts (e : Effect) (s : State) : Acts s (takeEffect e s) := by
  cases e with
  | hold f cause => exact holdFlight_acts _ _ _
  | trip f cause => exact (Act.trip _ _ _).acts
  | cue f => exact cueFlight_acts _ _
  | recompute st => exact recomputeEnable_acts _ _

theorem sourceEvent_acts (src : Source) (occurs : Condition → Bool) (recomputes : Bool) (s : State) :
    Acts s (sourceEvent src occurs recomputes s) :=
  takeInAnyOrder_acts _ _ (fun e _ t => takeEffect_acts e t) s

theorem writeLink_acts (i : LinkId) (l : Link) (s : State) : Acts s (writeLink i l s) :=
  (setLink_quiet _ _ _).acts.trans (takeInAnyOrder_acts _ _ (fun e _ t => takeEffect_acts e t) _)

theorem clearEntry_acts (i : LinkId) (s : State) : Acts s (clearEntry i s) := by
  unfold clearEntry
  dsimp only
  split
  · exact (setLink_quiet _ _ _).acts.trans (recomputeEnable_acts _ _)
  · exact (setLink_quiet _ _ _).acts

/-! ### The sense lines -/

theorem acceptChange_acts (n : LineId) (level : Level) (s : State) : Acts s (acceptChange n level s) :=
  ((updLine_quiet _ _ _).before rfl (mapPorts_quiet _ _)).acts.trans (sourceEvent_acts _ _ _ _)

theorem settleLine_acts (n : LineId) (s : State) : Acts s (settleLine n s) :=
  (updLine_quiet _ _ _).acts.trans (sourceEvent_acts _ _ _ _)

theorem takeRaw_acts (n : LineId) (s : State) : Acts s (takeRaw n s) := by
  unfold takeRaw
  split
  · exact settleLine_acts _ _
  · split
    · exact .refl _
    · exact acceptChange_acts _ _ _

theorem filterRaw_acts (n : LineId) (s : State) : Acts s (filterRaw n s) := by
  unfold filterRaw
  split
  · split
    · exact .refl _
    · exact (updLine_quiet _ _ _).acts
  · exact takeRaw_acts _ _

theorem rawChange_acts (n : LineId) (level : Level) (s : State) : Acts s (rawChange n level s) := by
  have moved := (updLine_quiet n (fun l => { l with raw := level }) s).acts
  unfold rawChange
  dsimp only
  repeat' split
  · exact .refl _
  · exact moved
  · exact moved.trans (filterRaw_acts _ _)

theorem writeFilters_acts (w : Half) (s : State) : Acts s (writeFilters w s) := by
  unfold writeFilters
  dsimp only
  refine Acts.trans (Quiet.acts ?_) (takeInAnyOrder_acts _ _ (fun n _ t => takeRaw_acts n t) _)
  exact ⟨rfl, rfl, rfl, rfl, rfl, .inl rfl⟩

end Sys2Proof.Machine
end

section
namespace Sys2Proof.Machine

/-! ## From commands to acts -/

/-! ### Ranges that the decoders of a request's fields enforce -/

theorem tensionOf_range {h : Half} {x : Int} (taken : tensionOf h = some x) : -4095 ≤ x ∧ x ≤ 4095 := by
  unfold tensionOf at taken
  split at taken <;> rename_i range
  · rw [inRange_iff] at range
    simp only [maxTension] at range
    cases taken
    exact range
  · cases taken

theorem limitsOf_range {d lo hi : Half} {decel : Nat} {l h : Int} (taken : limitsOf d lo hi = some (decel, l, h)) :
    (1 ≤ decel ∧ decel ≤ 1024) ∧ -4095 ≤ l ∧ l ≤ h ∧ h ≤ 4095 := by
  unfold limitsOf at taken
  split at taken
  · rename_i a b ha hb
    split at taken
    · rename_i fits
      rw [inRange_iff] at fits
      simp only [maxAccel] at fits
      cases taken
      have := tensionOf_range ha; have := tensionOf_range hb
      omega
    · cases taken
  · cases taken

theorem paramsOf_range {address : Byte} {lower upper vmax : Word} {amax : Half} {window : Word} {slot : Byte}
    {p : AxisParams} (taken : paramsOf address lower upper vmax amax window slot = some p) : p.InRange := by
  unfold paramsOf at taken
  split at taken
  · cases taken
  · split at taken <;> rename_i fits
    · simp only [Bool.and_eq_true, decide_eq_true_eq, inRange_iff] at fits
      simp only [maxPosition, maxSpeed, maxAccel, maxWindow] at fits
      obtain ⟨⟨⟨⟨⟨⟨⟨a1, a2⟩, l1⟩, l2⟩, l3⟩, v⟩, m⟩, w⟩ := fits
      cases taken
      have small : (address.setWidth 7).toNat = address.toNat := by
        rw [BitVec.toNat_setWidth]; exact Nat.mod_eq_of_lt (by omega)
      simp only [AxisParams.InRange, small]
      omega
    · cases taken

theorem segmentOf_range {tag : Half} {presence : Byte} {t0 t1 t2 t3 vmax : Word} {aUp aDn dwell : Half}
    {start flags : Byte} {seg : Segment}
    (taken : segmentOf tag presence t0 t1 t2 t3 vmax aUp aDn dwell start flags = some seg) : seg.InRange := by
  unfold segmentOf at taken
  split at taken
  · cases taken
  · split at taken <;> rename_i fits
    · simp only [Bool.and_eq_true, decide_eq_true_eq, inRange_iff, maxSpeed, maxAccel] at fits
      cases taken
      have := dwell.isLt
      simp only [Segment.InRange]
      omega
    · cases taken

theorem slotSettingsOf_range {input enabled : Byte} {tare high low slack : Half} {old new : Slot}
    (taken : slotSettingsOf input enabled tare high low slack old = some new) (range : old.InRange) : new.InRange := by
  unfold slotSettingsOf at taken
  split at taken
  · rename_i _ _ hi lo sl _ _ hhi hlo hsl
    split at taken <;> rename_i fits
    · simp only [maxTension] at fits
      have := tensionOf_range hhi; have := tensionOf_range hlo; have := tensionOf_range hsl
      cases taken
      simp only [Slot.InRange] at range ⊢
      refine ⟨?_, ?_, ?_, ?_, ?_, ?_, range.2.2.2.2.2.2⟩ <;> omega
    · cases taken
  · cases taken

theorem withResult_range {k : Slot} {raw : Nat} (origin : Origin) (fits : raw ≤ 4095) (range : k.InRange) :
    (k.withResult raw origin).InRange := by
  simp only [Slot.InRange, Slot.withResult, decide_eq_true_eq] at range ⊢
  omega

/-! ### What the owner of a request gives back -/

/-- A request's owner refuses it, changing nothing and answering no data, or takes it with an effect that P allows. -/
def Answers (s : State) (r : State × Answer) (P : State → Prop) : Prop :=
  (∃ code, code ≠ .done ∧ r = refuse s code) ∨ (P r.1 ∧ r.2.code = .done)

section
variable {s : State} {r : State × Answer} {P : State → Prop}

theorem Answers.refuse {code : ResultCode} (h : code ≠ .done) : Answers s (refuse s code) P := .inl ⟨code, h, rfl⟩

theorem Answers.accept {t : State} (h : P t) : Answers s (accept t) P := .inr ⟨h, rfl⟩

/-- A refused request changes nothing and answers no data. -/
theorem Answers.refused (h : Answers s r P) (code : r.2.code ≠ .done) : r.2.data = [] ∧ r.1 = s := by
  rcases h with ⟨_, -, rfl⟩ | ⟨-, done⟩
  · exact ⟨rfl, rfl⟩
  · exact absurd done code

theorem Answers.acts (h : Answers s r (Acts s)) : Acts s r.1 := by
  rcases h with ⟨_, -, rfl⟩ | ⟨acts, -⟩
  · exact .refl _
  · exact acts

/-- A driving request is refused, or handed to the owner of a flight that its station claims. -/
theorem driving_cases (st : Station) (flight : Byte) (s : State) (owner : FlightId → State × Answer) :
    (∃ code, code ≠ .done ∧ driving st flight s owner = Machine.refuse s code) ∨
      ∃ f, (s.flight f).claim = some st ∧ driving st flight s owner = owner f := by
  unfold driving
  repeat' split
  · exact .inl ⟨.badParameter, by decide, rfl⟩
  · exact .inr ⟨_, ‹_›, rfl⟩
  · exact .inl ⟨.notClaimed, by decide, rfl⟩

/-- ARM, GO and RESUME are refused, or handed to the owner of a flight whose claimer may start. -/
theorem drivingEnabled_cases (st : Station) (flight : Byte) (s : State) (owner : FlightId → State × Answer) :
    (∃ code, code ≠ .done ∧ drivingEnabled st flight s owner = Machine.refuse s code) ∨
      ∃ f, (s.flight f).claim = some st ∧ s.mayStart st = true ∧ drivingEnabled st flight s owner = owner f := by
  rcases driving_cases st flight s fun f => if s.mayStart st then owner f else Machine.refuse s .notEnabled with
    h | ⟨f, claim, h⟩
  · exact .inl h
  · by_cases may : s.mayStart st = true
    · exact .inr ⟨f, claim, may, h.trans (if_pos may)⟩
    · exact .inl ⟨.notEnabled, by decide, h.trans (if_neg may)⟩

theorem driving_answers {st : Station} {flight : Byte} {owner : FlightId → State × Answer}
    (h : ∀ f, (s.flight f).claim = some st → Answers s (owner f) P) : Answers s (driving st flight s owner) P := by
  rcases driving_cases st flight s owner with refused | ⟨f, claim, e⟩
  · exact .inl refused
  · rw [e]; exact h f claim

theorem drivingEnabled_answers {st : Station} {flight : Byte} {owner : FlightId → State × Answer}
    (h : ∀ f, (s.flight f).claim = some st → s.mayStart st = true → Answers s (owner f) P) :
    Answers s (drivingEnabled st flight s owner) P := by
  rcases drivingEnabled_cases st flight s owner with refused | ⟨f, claim, may, e⟩
  · exact .inl refused
  · rw [e]; exact h f claim may

end

theorem serveClaim_answers (st : Station) (flight take : Byte) (s : State) :
    Answers s (serveClaim st flight take s) (Acts s) := by
  unfold serveClaim
  repeat' split
  · exact .accept (Act.claim _ _ _).acts
  · exact .accept (.refl _)
  · exact .refuse (by decide)
  · exact .accept (Act.claim _ _ _).acts
  · exact .refuse (by decide)
  · exact .refuse (by decide)

theorem serveRelease_answers (st : Station) (flight : Byte) (s : State) :
    Answers s (serveRelease st flight s) (Acts s) := by
  unfold serveRelease
  repeat' split
  · exact .refuse (by decide)
  · exact .refuse (by decide)
  · exact .accept (Act.release _ _ ‹_›).acts
  · exact .refuse (by decide)

theorem bindAxesOf_some {axes : List Byte} {ns : List AxisId} (h : bindAxesOf axes = some ns) :
    ns.Nodup ∧ ns ≠ [] ∧ ns.length ≤ 4 := by
  unfold bindAxesOf at h
  dsimp only at h
  split at h
  · rename_i fits
    obtain ⟨len, one, four, nodup⟩ := fits
    cases h
    exact ⟨nodup, fun nil => by rw [nil] at len; simp at len; omega, len.le.trans four⟩
  · cases h

theorem serveBind_answers (st : Station) (flight : Byte) (axes : List Byte) (s : State) :
    Answers s (serveBind st flight axes s) (Acts s) := by
  unfold serveBind
  split
  · rename_i f ns _ hns
    obtain ⟨nodup, some, few⟩ := bindAxesOf_some hns
    repeat' split
    · exact .refuse (by decide)
    · exact .refuse (by decide)
    · exact .refuse (by decide)
    · exact .refuse (by decide)
    · rename_i _ state away faulty
      simp only [List.any_eq_true, unavailableFor, Bool.or_eq_true, decide_eq_true_eq, not_exists, not_and, not_or] at away
      simp only [List.any_eq_true, decide_eq_true_eq, not_exists, not_and] at faulty
      refine .accept (Act.bind f ns s ⟨nodup, some, few, by tauto, fun n hn => ?_, fun n hn => (away n hn).1, faulty⟩).acts
      have := (away n hn).2
      tauto
  · exact .refuse (by decide)

theorem serveUnbind_answers (st : Station) (flight : Byte) (s : State) :
    Answers s (serveUnbind st flight s) (Acts s) := by
  refine driving_answers fun f _ => ?_
  split
  · exact .accept (Act.unbind _ _ ‹_›).acts
  · exact .refuse (by decide)

theorem serveConfigureAxis_answers (st : Station) (axis address : Byte) (lower upper vmax : Word) (amax : Half)
    (window : Word) (slot : Byte) (s : State) :
    Answers s (serveConfigureAxis st axis address lower upper vmax amax window slot s) (Acts s) := by
  unfold serveConfigureAxis
  split
  · rename_i n p _ hp
    dsimp only
    repeat' split
    · exact .refuse (by decide)
    · exact .refuse (by decide)
    · exact .refuse (by decide)
    · exact .refuse (by decide)
    · rename_i _ parked fresh streak
      refine .accept (Act.configure n p s ⟨paramsOf_range hp, fun f bound => ?_, by simpa using fresh, streak⟩).acts
      simpa [bound] using parked
  · exact .refuse (by decide)

theorem serveSetFlightLimits_answers (st : Station) (flight : Byte) (decel lo hi : Half) (s : State) :
    Answers s (serveSetFlightLimits st flight decel lo hi s) (Acts s) := by
  unfold serveSetFlightLimits
  split
  · exact .refuse (by decide)
  · rename_i d l h taken
    obtain ⟨range, low, order, high⟩ := limitsOf_range taken
    exact driving_answers fun f _ => .accept
      (Act.fly f (updFlight_flown (.limits d l h range low order high) (fun _ => by rfl) (by rfl))).acts

theorem serveArm_answers (st : Station) (flight : Byte) (s : State) :
    Answers s (serveArm st flight s) fun t => ∃ f, ArmFits st f s ∧ t = armFlight f s := by
  refine drivingEnabled_answers fun f claim may => ?_
  repeat' split
  · exact .refuse (by decide)
  · exact .refuse (by decide)
  · exact .refuse (by decide)
  · rename_i parked clear _
    exact .accept ⟨f, ⟨claim, may, not_not.mp parked, by simpa using clear⟩, rfl⟩

/-- What a GO does: it is refused, or its flight's head is started or rejected (02, R29, R31 to R34). -/
theorem serveGo_cases (st : Station) (flight : Byte) (s : State) :
    (∃ code, code ≠ .done ∧ serveGo st flight s = refuse s code) ∨
      ∃ f, (s.flight f).state = .ready ∧
        serveGo st flight s = ((startHead false f s).1, { code := (startHead false f s).2, data := [] }) := by
  rcases drivingEnabled_cases st flight s _ with refused | ⟨f, -, -, e⟩
  · exact .inl refused
  · unfold serveGo
    rw [e]
    dsimp only
    split
    · exact .inl ⟨.badState, by decide, rfl⟩
    · rename_i ready
      split
      · exact .inl ⟨.conditionPersists, by decide, rfl⟩
      · exact .inr ⟨f, not_not.mp ready, rfl⟩

theorem serveGo_acts (st : Station) (flight : Byte) (s : State) : Acts s (serveGo st flight s).1 := by
  rcases serveGo_cases st flight s with ⟨_, -, h⟩ | ⟨f, ready, h⟩
  · rw [h]; exact .refl _
  · rw [h]; exact startHead_acts ready

/-- The start procedure changes nothing, starts the head, or rejects it with the code of the check that failed. -/
theorem startHead_code (byCue : Bool) (f : FlightId) (s : State) :
    startHead byCue f s = (s, .queueEmpty) ∨ (startHead byCue f s).2 = .done ∨
      (startHead byCue f s).2 = .outOfLimits ∨ (startHead byCue f s).2 = .loadOutOfWindow := by
  cases queue : (s.flight f).queue with
  | nil => exact .inl (startHead_empty queue)
  | cons seg rest =>
    by_cases fits : StartFits s f seg
    · rw [startHead_taken queue fits.1 fits.2]; exact .inr (.inl rfl)
    · exact .inr (.inr (startHead_refused queue fits).2)

/-- A GO that is not answered DONE changes nothing, but that its head may have been rejected (02, R33). -/
theorem serveGo_refused {st : Station} {flight : Byte} {s : State} (code : (serveGo st flight s).2.code ≠ .done) :
    (serveGo st flight s).2.data = [] ∧ ((serveGo st flight s).1 = s ∨
      (serveGo st flight s).2.code = .outOfLimits ∨ (serveGo st flight s).2.code = .loadOutOfWindow) := by
  rcases serveGo_cases st flight s with ⟨_, -, h⟩ | ⟨f, -, h⟩
  · rw [h]; exact ⟨rfl, .inl rfl⟩
  · rw [h] at code ⊢
    refine ⟨rfl, ?_⟩
    rcases startHead_code false f s with e | e | e | e
    · rw [e]; exact .inl rfl
    · exact absurd e code
    · exact .inr (.inl e)
    · exact .inr (.inr e)

theorem resumeFlight_acts {f : FlightId} {s : State} (held : (s.flight f).state = .held) :
    Acts s (resumeFlight f s) := by
  have stateOnly {x : FlightState} (move : FlightMove (s.memberAxes f) (s.flight f) { s.flight f with state := x }) :
      Acts s (putFlightState f x s) := by
    refine (Act.fly f ⟨?_, putFlightState_work _ _ _, .of_axes rfl, fun _ _ => rfl, .inl (putFlightState_driven _ _ _)⟩).acts
    have same : (putFlightState f x s).memberAxes f = s.memberAxes f := memberAxes_congr (by simp) rfl
    rw [same, putFlightState_flight_same]
    exact move
  unfold resumeFlight
  split
  · rename_i act active
    exact (Act.fly f (putFlightState_flown (.resumeMoving act held active) (by rfl))).acts
  · rename_i active dwell
    exact stateOnly (.resumeDwell held active (by simp [dwell]))
  · rename_i active dwell
    exact stateOnly (.resumeReady held active dwell)

theorem serveResume_answers (st : Station) (flight : Byte) (s : State) :
    Answers s (serveResume st flight s) (Acts s) := by
  refine drivingEnabled_answers fun f _ _ => ?_
  repeat' split
  · exact .refuse (by decide)
  · exact .refuse (by decide)
  · rename_i held _
    exact .accept (resumeFlight_acts (not_not.mp held))

theorem serveCancel_answers (st : Station) (flight : Byte) (s : State) :
    Answers s (serveCancel st flight s) (Acts s) := by
  refine driving_answers fun f _ => ?_
  split
  · rename_i held
    exact .accept (Act.fly f (putFlightState_flown (.cancel held) (by rfl))).acts
  · exact .refuse (by decide)

theorem servePark_answers (st : Station) (flight : Byte) (s : State) : Answers s (servePark st flight s) (Acts s) := by
  refine driving_answers fun f _ => ?_
  split
  · exact .accept (Act.park f s ‹_›).acts
  · exact .refuse (by decide)

theorem serveResetFlight_answers (st : Station) (flight : Byte) (s : State) :
    Answers s (serveResetFlight st flight s) (Acts s) := by
  refine driving_answers fun f _ => ?_
  repeat' split
  · exact .refuse (by decide)
  · exact .refuse (by decide)
  · exact .refuse (by decide)
  · rename_i tripped _ clear
    refine .accept (Act.resetFlight f s (not_not.mp tripped) fun n hn three => clear ?_).acts
    simp only [State.memberAxes, List.any_map, List.any_eq_true, Function.comp, blocksReset, Bool.or_eq_true,
      decide_eq_true_eq]
    exact ⟨n, hn, .inr three⟩

theorem serveOpenCue_answers (st : Station) (flight : Byte) (s : State) :
    Answers s (serveOpenCue st flight s) (Acts s) :=
  driving_answers fun f _ => .accept (Act.fly f (updFlight_flown (.gate .opened) (fun _ => by rfl) (by rfl))).acts

theorem serveCloseCue_answers (st : Station) (flight : Byte) (s : State) :
    Answers s (serveCloseCue st flight s) (Acts s) :=
  driving_answers fun f _ => .accept (Act.fly f (updFlight_flown (.gate .closed) (fun _ => by rfl) (by rfl))).acts

theorem serveHold_answers (st : Station) (flight : Byte) (s : State) : Answers s (serveHold st flight s) (Acts s) := by
  unfold serveHold
  split
  · exact .refuse (by decide)
  · exact .accept (holdFlight_acts _ _ _)

theorem serveHoldAll_answers (st : Station) (s : State) : Answers s (serveHoldAll st s) (Acts s) :=
  .accept (Acts.foldl _ _ (fun _ _ _ => holdFlight_acts _ _ _) s)

theorem serveStop_answers (st : Station) (flight : Byte) (s : State) : Answers s (serveStop st flight s) (Acts s) := by
  unfold serveStop
  repeat' split
  · exact .accept (Acts.foldl _ _ (fun _ _ _ => (Act.trip _ _ _).acts) s)
  · exact .refuse (by decide)
  · exact .accept (Act.trip _ _ _).acts

theorem serveAppend_answers (st : Station) (flight : Byte) (tag : Half) (presence : Byte) (t0 t1 t2 t3 vmax : Word)
    (aUp aDn dwell : Half) (start flags : Byte) (s : State) :
    Answers s (serveAppend st flight tag presence t0 t1 t2 t3 vmax aUp aDn dwell start flags s) (Acts s) := by
  unfold serveAppend
  split
  · exact .refuse (by decide)
  · rename_i seg taken
    refine driving_answers fun f _ => ?_
    repeat' split
    · exact .refuse (by decide)
    · exact .refuse (by decide)
    · exact .refuse (by decide)
    · exact .refuse (by decide)
    · rename_i bound _ _ room
      exact .accept (Act.fly f (updFlight_flown
        (.append seg bound (Nat.not_le.mp room) (segmentOf_range taken)) (fun _ => by rfl) (by rfl))).acts

theorem serveFlush_answers (st : Station) (flight : Byte) (s : State) : Answers s (serveFlush st flight s) (Acts s) := by
  refine driving_answers fun f _ => ?_
  split
  · exact .refuse (by decide)
  · exact .accept (Act.fly f (updFlight_flown .flush (fun _ => by rfl) (by rfl))).acts

theorem serveSetLink_answers (link source condition action target : Byte) (s : State) :
    Answers s (serveSetLink link source condition action target s) (Acts s) := by
  unfold serveSetLink
  split
  · exact .accept (writeLink_acts _ _ _)
  · exact .refuse (by decide)

theorem serveClearLink_answers (link : Byte) (s : State) : Answers s (serveClearLink link s) (Acts s) := by
  unfold serveClearLink
  split
  · exact .refuse (by decide)
  · exact .accept (clearEntry_acts _ _)

/-! ### The scanner -/

theorem beginScan_quiet (s : State) : Quiet s (beginScan s) := by
  unfold beginScan
  repeat' split
  all_goals exact ⟨rfl, rfl, rfl, rfl, rfl, .inl rfl⟩

theorem endScan_quiet (s : State) : Quiet s (endScan s) := by
  unfold endScan
  split
  · exact beginScan_quiet s
  all_goals exact ⟨rfl, rfl, rfl, rfl, rfl, .inl rfl⟩

theorem nextConversion_quiet (k : SlotId) (s : State) : Quiet s (nextConversion k s) := by
  unfold nextConversion
  repeat' split
  · exact ⟨rfl, rfl, rfl, rfl, rfl, .inl rfl⟩
  · exact endScan_quiet s
  · exact endScan_quiet s

theorem scannerStep_quiet (s : State) : Quiet s (scannerStep s) := by
  unfold scannerStep
  split
  · exact beginScan_quiet s
  all_goals exact .refl s

theorem startScan_quiet (mode : ScanMode) (s : State) : Quiet s (startScan mode s) := by
  have set : Quiet s { s with scanMode := mode } := ⟨rfl, rfl, rfl, rfl, rfl, .inl rfl⟩
  cases mode
  case once | continuous => exact set.before rfl (beginScan_quiet _)
  all_goals exact ⟨rfl, rfl, rfl, rfl, rfl, .inl rfl⟩

theorem newResult_acts (k : SlotId) {raw : Nat} (origin : Origin) (fits : raw ≤ 4095) (s : State) :
    Acts s (newResult k raw origin s) := by
  unfold newResult
  dsimp only
  exact ((Act.slot k _ s (withResult_range origin fits)).acts.trans (mapPorts_quiet _ _).acts).trans
    (sourceEvent_acts _ _ _ _)

theorem serveSetSlot_answers (slot input enabled : Byte) (tare high low slack : Half) (s : State) :
    Answers s (serveSetSlot slot input enabled tare high low slack s) (Acts s) := by
  unfold serveSetSlot
  repeat' split
  · exact .refuse (by decide)
  · exact .refuse (by decide)
  · rename_i taken _
    exact .accept (Act.slot _ _ _ (slotSettingsOf_range taken)).acts
  · exact .refuse (by decide)

theorem serveScan_answers (mode : Byte) (s : State) : Answers s (serveScan mode s) (Acts s) := by
  unfold serveScan
  split
  · exact .refuse (by decide)
  · exact .accept (startScan_quiet _ _).acts

theorem serveInject_answers (slot : Byte) (raw : Half) (s : State) : Answers s (serveInject slot raw s) (Acts s) := by
  unfold serveInject
  repeat' split
  · exact .refuse (by decide)
  · exact .accept (newResult_acts _ _ (Nat.min_le_right _ _) _)
  · exact .refuse (by decide)

/-! ### Reads -/

theorem serveReadFlight_answers (flight : Byte) (s : State) : Answers s (serveReadFlight flight s) (Acts s) := by
  unfold serveReadFlight
  split
  · exact .refuse (by decide)
  · exact .inr ⟨.refl _, rfl⟩

theorem serveReadAxis_answers (axis : Byte) (s : State) : Answers s (serveReadAxis axis s) (Acts s) := by
  unfold serveReadAxis
  split
  · exact .refuse (by decide)
  · exact .inr ⟨.refl _, rfl⟩

theorem serveReadLines_answers (st : Station) (filters : Option Half) (s : State) :
    Answers s (serveReadLines st filters s) (Acts s) := by
  refine .inr ⟨?_, rfl⟩
  unfold serveReadLines
  dsimp only
  refine Acts.trans ?_ (updPort_quiet _ _ _).acts
  split
  · exact writeFilters_acts _ _
  · exact .refl _

/-! ### Every request -/

/-- A request that is neither a GO nor an ARM is refused, or taken with a run of acts. -/
theorem serveRequest_answers {i : Instr} {s : State} (go : ∀ st f, i ≠ .go st f) (arm : ∀ st f, i ≠ .arm st f) :
    Answers s (serveRequest i s) (Acts s) := by
  cases i with
  | claim => exact serveClaim_answers _ _ _ _
  | release => exact serveRelease_answers _ _ _
  | bind => exact serveBind_answers _ _ _ _
  | unbind => exact serveUnbind_answers _ _ _
  | configureAxis => exact serveConfigureAxis_answers _ _ _ _ _ _ _ _ _ _
  | setFlightLimits => exact serveSetFlightLimits_answers _ _ _ _ _ _
  | arm st f => exact absurd rfl (arm st f)
  | go st f => exact absurd rfl (go st f)
  | resume => exact serveResume_answers _ _ _
  | cancel => exact serveCancel_answers _ _ _
  | park => exact servePark_answers _ _ _
  | resetFlight => exact serveResetFlight_answers _ _ _
  | openCue => exact serveOpenCue_answers _ _ _
  | closeCue => exact serveCloseCue_answers _ _ _
  | hold => exact serveHold_answers _ _ _
  | holdAll => exact serveHoldAll_answers _ _
  | stop => exact serveStop_answers _ _ _
  | append => exact serveAppend_answers _ _ _ _ _ _ _ _ _ _ _ _ _ _ _
  | flush => exact serveFlush_answers _ _ _
  | setLink => exact serveSetLink_answers _ _ _ _ _ _
  | clearLink => exact serveClearLink_answers _ _
  | setSlot => exact serveSetSlot_answers _ _ _ _ _ _ _ _
  | scan => exact serveScan_answers _ _
  | inject => exact serveInject_answers _ _ _
  | status => exact .inr ⟨(updPort_quiet _ _ _).acts, rfl⟩
  | readFlight => exact serveReadFlight_answers _ _
  | readAxis => exact serveReadAxis_answers _ _
  | readSlots => exact .inr ⟨(updPort_quiet _ _ _).acts, rfl⟩
  | readLines => exact serveReadLines_answers _ _ _
  | _ => exact .refuse (by decide)

/-- A request is a run of acts, or an ARM that is taken. -/
theorem serveRequest_cases (i : Instr) (s : State) :
    Acts s (serveRequest i s).1 ∨ ∃ st f, ArmFits st f s ∧ (serveRequest i s).1 = armFlight f s := by
  by_cases arm : ∃ st f, i = .arm st f
  · obtain ⟨st, b, rfl⟩ := arm
    rcases serveArm_answers st b s with ⟨_, -, h⟩ | ⟨⟨f, fits, h⟩, -⟩
    · refine .inl ?_
      show Acts s (serveArm st b s).1
      rw [h]; exact .refl _
    · exact .inr ⟨st, f, fits, h⟩
  by_cases go : ∃ st f, i = .go st f
  · obtain ⟨st, b, rfl⟩ := go
    exact .inl (serveGo_acts st b s)
  push Not at arm go
  exact .inl (serveRequest_answers go arm).acts

/-- A row that carries a request takes it on its port (10, R176). -/
theorem exec_request {i : Instr} {st : Station} {kind : Byte} {body : List Byte} (s : State)
    (h : encodeRequest i = some (st, kind, body)) : exec i s = onRequest st kind (serveRequest i) s := by
  cases i <;> first | cases h | skip
  case readLines st filters => cases filters <;> cases h <;> rfl
  all_goals rfl

end Sys2Proof.Machine
end

section
namespace Sys2Proof.Machine

/-! ### The axis bus and supervision -/

theorem beginRound_quiet (s : State) : Quiet s (beginRound s) := by
  unfold beginRound; split <;> exact ⟨rfl, rfl, rfl, rfl, rfl, .inl rfl⟩

theorem roundStep_quiet (s : State) : Quiet s (roundStep s) := by
  unfold roundStep
  split
  · exact beginRound_quiet s
  · exact ⟨rfl, rfl, rfl, rfl, rfl, .inl rfl⟩

theorem passTurn_acts {x : Turn} {s t : State} (h : Acts s t) : Acts s (passTurn x t) :=
  h.trans (passTurn_quiet x t).acts

/-- An axis record rewritten by a move that keeps its state. -/
theorem updAxis_acts {n : AxisId} {g : Axis → Axis} {s : State} (move : AxisMove (s.axis n) (g (s.axis n)))
    (state : (g (s.axis n)).state = (s.axis n).state) : Acts s (s.updAxis n g) := by
  refine Act.acts (Act.axis n (s := s) (t := s.updAxis n g)
    ⟨?_, fun m ne => ?_, rfl, rfl, .inr ⟨⟨rfl, rfl, rfl⟩, fun _ => rfl, fun m => ?_⟩⟩)
  · rw [State.updAxis_axis_same]; exact move
  · rw [State.updAxis_axis, if_neg ne]
  · rw [State.updAxis_axis]
    split
    · rename_i e; subst e; exact state
    · rfl

theorem putAxis_axis (n m : AxisId) (g : Axis → Axis) (s : State) :
    (putAxis n g s).axis m = if m = n then g (s.axis m) else s.axis m := State.updAxis_axis _ _ _ _

@[simp] theorem putAxis_axis_same (n : AxisId) (g : Axis → Axis) (s : State) :
    (putAxis n g s).axis n = g (s.axis n) := by simp [putAxis_axis]

theorem putAxis_driven (n : AxisId) (g : Axis → Axis) (s : State) : OutputsDriven s (putAxis n g s) :=
  driveOutputs_driven _

theorem putAxis_following_acts {n : AxisId} {s : State} (state : (s.axis n).state = .releasing) :
    Acts s (putAxis n (fun a => { a with state := .following }) s) := by
  refine Act.acts (Act.axis n (s := s) (t := putAxis n (fun a => { a with state := .following }) s)
    ⟨?_, fun m ne => ?_, rfl, rfl, .inl (putAxis_driven _ _ _)⟩)
  · rw [putAxis_axis_same]; exact .confirmed state
  · rw [putAxis_axis, if_neg ne]

theorem missExchange_acts (x : Exchange) (s : State) : Acts s (missExchange x s) := by
  unfold missExchange
  refine passTurn_acts ?_
  split
  · exact .refl _
  · exact (Act.miss _ _ _).acts

theorem writeEnds_acts (x : Exchange) (s : State) : Acts s (writeEnds x s) := by
  unfold writeEnds
  refine passTurn_acts ?_
  split
  · exact .refl _
  · exact updAxis_acts (.written _) rfl

theorem meetTrip_acts (x : Turn) (cause : FaultCause) (s : State) : Acts s (meetTrip x cause s) := by
  rcases meetTrip_spec x cause s with h | h | ⟨f, other, -, -, -, h⟩ <;> rw [h]
  · exact .refl _
  · exact (freeIndex_quiet _ _).acts
  · exact (freeIndex_quiet _ _).acts.trans (Act.trip _ _ _).acts

theorem faultAtRead_acts (x : Turn) (cause : FaultCause) (s : State) : Acts s (faultAtRead x cause s) :=
  (meetTrip_acts x cause s).trans (Act.fault _ _ _).acts

theorem judge_acts {x : Turn} {verdict : Option FaultCause} {s : State} {passed : State → State}
    (h : Acts s (passed s)) : Acts s (judge x verdict s passed) := by
  unfold judge
  split
  · exact faultAtRead_acts _ _ _
  · exact h

theorem supervise_acts (x : Turn) (pos : Int) (status : Byte) (s : State) : Acts s (supervise x pos status s) := by
  unfold supervise
  dsimp only
  split <;> rename_i state
  · exact .refl _
  · exact .refl _
  · repeat' split
    · exact faultAtRead_acts _ _ _
    · exact faultAtRead_acts _ _ _
    · exact (Act.track _ _ _ state ‹_›).acts
    · exact .refl _
  · repeat' split
    · exact faultAtRead_acts _ _ _
    · exact (putAxis_following_acts state).trans (judge_acts (Act.confirm _ _).acts)
    · exact judge_acts (.refl _)
  · repeat' split
    · exact faultAtRead_acts _ _ _
    · exact judge_acts (.refl _)
    · exact faultAtRead_acts _ _ _

theorem readArrives_acts (x : Exchange) (position : Word) (status check : Byte) (s : State) :
    Acts s (readArrives x position status check s) := by
  unfold readArrives
  split
  · refine passTurn_acts ?_
    split
    · exact .refl _
    · exact (updAxis_acts (.read _ _) rfl).trans (supervise_acts _ _ _ _)
  · exact missExchange_acts _ _

/-! ### The step expiry -/

theorem countSilence_quiet (st : Station) (s : State) : Quiet s (countSilence st s) := by
  unfold countSilence
  repeat' split
  all_goals exact ⟨rfl, rfl, rfl, rfl, rfl, .inl rfl⟩

theorem flightExpiry_acts (late : Station → Bool) (f : FlightId) (s : State) : Acts s (flightExpiry late f s) := by
  unfold flightExpiry
  split
  · refine takeInAnyOrder_acts _ _ (fun path _ t => ?_) s
    split
    · exact pathStep_acts _ _
    · exact restrainFlight_acts _ _ _
  · exact pathStep_acts _ _

theorem stepAll_acts (s : State) : Acts s (stepAll s) := by
  have ticked : Quiet s { s with stepCounter := s.stepCounter + 1, sounder := s.sounder.tick } :=
    ⟨rfl, rfl, rfl, rfl, rfl, .inr rfl⟩
  unfold stepAll
  dsimp only
  refine Acts.trans ?_ (scannerStep_quiet _).acts
  refine Acts.trans ?_ (roundStep_quiet _).acts
  refine Acts.trans ?_ (Acts.foldl _ _ (fun t f _ => flightExpiry_acts _ f t) _)
  exact ticked.acts.trans (Acts.foldl _ _ (fun t st _ => (countSilence_quiet st t).acts) _)

theorem execSndrPhaseExpiry_quiet {s t : State} (h : execSndrPhaseExpiry s = .next t) : Quiet s t := by
  unfold execSndrPhaseExpiry at h
  cases h
  split
  · rename_i sounding count now
    split
    · rename_i due
      simp only [Bool.and_eq_true, decide_eq_true_eq] at due
      refine ⟨rfl, rfl, rfl, rfl, rfl, .inr ?_⟩
      rw [now, Sounder.tick, if_pos due.2]
    · exact .refl _
  all_goals exact .refl _

/-! ### Ports -/

/-- From s to t a command has run: a run of acts, or an ARM taken. -/
def Ran (s t : State) : Prop := Acts s t ∨ ArmTaken s t

theorem Acts.ran {s t : State} (h : Acts s t) : Ran s t := .inl h

/-- A request taken on a port, behind quiet changes that leave the sounder alone. -/
theorem takeRequest_ran {s u : State} (h : Quiet s u) (st : Station) (kind : Byte) (i : Instr) :
    Ran s (takeRequest st kind (serveRequest i) u) := by
  rcases serveRequest_cases i u with acts | ⟨claimer, f, fits, e⟩
  · exact .inl ((h.acts.trans acts).trans (startReply_quiet _ _ _ _).acts)
  · refine .inr ⟨claimer, f, u, st, kind, (serveRequest i u).2, h, fits, ?_⟩
    rw [takeRequest, e]

theorem takeRequest_refused_ran {s u : State} (h : Quiet s u) (st : Station) (kind : Byte) (code : ResultCode) :
    Ran s (takeRequest st kind (fun t => refuse t code) u) :=
  .inl (h.acts.trans (startReply_quiet _ _ _ _).acts)

theorem onRequest_ran (st : Station) (kind : Byte) (i : Instr) {s t : State}
    (h : onRequest st kind (serveRequest i) s = .next t) : Ran s t := by
  unfold onRequest at h
  cases h
  split
  · exact .inl (.refl _)
  · exact takeRequest_ran (markHeard_quiet st s) _ _ _

theorem takeFrame_ran {s u : State} (h : Quiet s u) (st : Station) (fr : Frame) : Ran s (takeFrame st fr u) := by
  unfold takeFrame
  split
  · exact takeRequest_refused_ran h _ _ _
  · exact takeRequest_refused_ran h _ _ _
  · exact takeRequest_ran h _ _ _

theorem placeFrame_ran (st : Station) (fr : Frame) (s : State) : Ran s (placeFrame st fr s) := by
  have heard : Quiet s (markHeard st (s.updPort st fun p => { p with stage := .hunting, assembly := .empty })) :=
    (updPort_quiet _ _ _).before rfl (markHeard_quiet _ _)
  unfold placeFrame
  dsimp only
  repeat' split
  · exact .inl (updPort_quiet _ _ _).acts
  · exact takeFrame_ran heard _ _
  · exact .inl (heard.before rfl (updPort_quiet _ _ _)).acts

theorem byteArrives_ran (st : Station) (b : Byte) (stopOk : Bool) (s : State) : Ran s (byteArrives st b stopOk s) := by
  have ported (g : Port → Port) : Ran s (s.updPort st g) := .inl (updPort_quiet _ _ _).acts
  unfold byteArrives receiveByte completeFrame
  dsimp only
  repeat' split
  any_goals exact ported _
  · exact .inl (.refl _)
  · exact placeFrame_ran _ _ _

theorem replyEnds_ran (st : Station) (s : State) : Ran s (replyEnds st s) := by
  unfold replyEnds
  split
  · exact .inl (updPort_quiet _ _ _).acts
  · exact takeFrame_ran (updPort_quiet _ _ _) _ _

/-! ### Every command -/

theorem releaseReset_acts (s : State) : Acts s (releaseReset s) := by
  unfold releaseReset
  dsimp only
  refine Acts.trans (Quiet.acts ?_) (takeInAnyOrder_acts _ _ (fun n _ t => settleLine_acts n t) _)
  exact ⟨rfl, rfl, rfl, rfl, rfl, .inl rfl⟩

/-- Every command is a run of acts, or an ARM taken. -/
theorem exec_ran {i : Instr} {s t : State} (h : exec i s = .next t) : Ran s t := by
  cases e : encodeRequest i with
  | some frame =>
    obtain ⟨st, kind, body⟩ := frame
    rw [exec_request s e] at h
    exact onRequest_ran _ _ _ h
  | none =>
    cases i <;> first | (cases e; done) | skip
    case readLines st filters => cases filters <;> cases e
    case resetnAssert => cases h; exact (Act.reset _).acts.ran
    case resetEnd => cases h; split; exacts [(releaseReset_acts _).ran, .inl (.refl _)]
    case unknownKind st kind =>
      change execUnknownKind st kind s = _ at h
      unfold execUnknownKind onRequest at h
      split at h <;> cases h
      · exact .inl (.refl _)
      · split
        · exact .inl (.refl _)
        · exact takeRequest_refused_ran (markHeard_quiet st s) _ _ _
    case byteReceived => cases h; split; exacts [.inl (.refl _), byteArrives_ran _ _ _ _]
    case gap => cases h; split; exacts [.inl (.refl _), .inl (updPort_quiet _ _ _).acts]
    case replySent => cases h; split; exacts [.inl (.refl _), replyEnds_ran _ _]
    case stepExpiry => cases h; split; exacts [(stepAll_acts _).ran, .inl (.refl _)]
    case dwellExpiry f =>
      cases h
      repeat' split
      · exact (endDwell_acts ‹_›).ran
      · exact .inl (.refl _)
      · exact .inl (.refl _)
    case brakeTimeout f =>
      cases h
      repeat' split
      · exact (Act.trip _ _ _).acts.ran
      · exact .inl (.refl _)
      · exact .inl (.refl _)
    case silence st =>
      cases h
      split
      · exact ((countSilence_quiet _ _).acts.trans (restrainClaimed_acts _ _ _)).ran
      · exact .inl (.refl _)
    case sndrPhaseExpiry => exact (execSndrPhaseExpiry_quiet h).acts.ran
    case exchangeStart =>
      cases h
      repeat' split
      all_goals exact .inl (Quiet.acts ⟨rfl, rfl, rfl, rfl, rfl, .inl rfl⟩)
    case heldLine =>
      cases h
      repeat' split
      · exact .inl (.refl _)
      · exact (passTurn_acts (Act.miss _ _ _).acts).ran
      · exact .inl (.refl _)
    case writeComplete =>
      cases h
      repeat' split
      · exact (writeEnds_acts _ _).ran
      · exact .inl (.refl _)
      · exact .inl (.refl _)
    case readComplete =>
      cases h
      repeat' split
      · exact (readArrives_acts _ _ _ _ _).ran
      · exact .inl (.refl _)
      · exact .inl (.refl _)
    case answerHoldTimeout =>
      cases h
      repeat' split
      · exact (missExchange_acts _ _).ran
      · exact .inl (.refl _)
      · exact .inl (.refl _)
    case missedExchange =>
      cases h
      repeat' split
      · exact .inl (.refl _)
      · exact (missExchange_acts _ _).ran
      · exact .inl (.refl _)
    case rawLevelChange => cases h; exact (rawChange_acts _ _ _).ran
    case filterAccept =>
      cases h
      repeat' split
      · exact (acceptChange_acts _ _ _).ran
      all_goals exact .inl (.refl _)
    case lineSettle => cases h; split; exacts [(settleLine_acts _ _).ran, .inl (.refl _)]
    case conversionComplete raw =>
      cases h
      repeat' split
      · exact .inl (.refl _)
      · exact ((newResult_acts _ _ (by have := raw.isLt; omega) _).trans (nextConversion_quiet _ _).acts).ran
      all_goals exact .inl (.refl _)

/-- A step is a run of acts, or an ARM taken. -/
theorem step_ran {s t : State} (h : step s = .next t) : ∃ rest, Ran { s with pending := rest } t := by
  unfold step at h
  split at h
  · cases h; exact ⟨s.pending, .inl (.refl _)⟩
  · exact ⟨_, exec_ran h⟩

end Sys2Proof.Machine
end

section
namespace Sys2Proof.Machine

/-! ## What an act makes of each flight's record -/

theorem bindMembers_axis (f : FlightId) (ns : List AxisId) (s : State) (n : AxisId) :
    (bindMembers f ns s).axis n =
      if n ∈ ns then
        { (if (s.flight f).state = .free then (s.axis n).brakedDown else s.axis n) with flight := some f }
      else if n ∈ (s.flight f).members then { s.axis n with flight := none } else s.axis n := by
  have moved (a : Axis) : Axis.brakedDown { a with flight := some f } = { a.brakedDown with flight := some f } := by
    have same : Axis.released { a with flight := some f } = a.released := rfl
    unfold Axis.brakedDown
    rw [same]
    split <;> rfl
  unfold bindMembers
  dsimp only
  by_cases hn : n ∈ ns <;> split
  · rw [putFlightState_axis, brakeMembers_axis]
    simp [hn, moved, ‹(s.flight f).state = .free›]
  · simp [hn]
  · rw [putFlightState_axis, brakeMembers_axis]
    simp [hn]
  · simp [hn]

theorem bindMembers_flight_same (f : FlightId) (ns : List AxisId) (s : State)
    (state : (s.flight f).state = .free ∨ (s.flight f).state = .parked) :
    (bindMembers f ns s).flight f = { s.flight f with state := .parked, members := ns, queue := [], queueLow := false } := by
  unfold bindMembers
  dsimp only
  split
  · simp
  · rename_i bound
    simp [← state.resolve_left bound]

theorem bindMembers_work (f : FlightId) (ns : List AxisId) (s : State) : FlightWork f s (bindMembers f ns s) := by
  unfold bindMembers
  dsimp only
  have bound := (mapAxes_work f (fun n a => if n ∈ ns then { a with flight := some f } else
    if n ∈ (s.flight f).members then { a with flight := none } else a) s).trans
      (updFlight_work f (fun r => { r with members := ns, queue := [], queueLow := false }) _)
  split
  · exact (bound.trans (mapAxes_work _ _ _)).trans (putFlightState_work _ _ _)
  · exact bound

theorem unbindMembers_flight_same (f : FlightId) (s : State) :
    (unbindMembers f s).flight f =
      { s.flight f with state := .free, members := [], queue := [], queueLow := false, holdCause := none } := by
  simp [unbindMembers]

theorem unbindMembers_axis (f : FlightId) (s : State) (n : AxisId) :
    (unbindMembers f s).axis n = if n ∈ (s.flight f).members then { s.axis n with flight := none } else s.axis n := by
  simp [unbindMembers]

theorem unbindMembers_work (f : FlightId) (s : State) : FlightWork f s (unbindMembers f s) :=
  ((mapAxes_work _ _ _).trans (updFlight_work _ _ _)).trans (putFlightState_work _ _ _)

theorem armFlight_flight_same (f : FlightId) (s : State) :
    (armFlight f s).flight f = { s.flight f with state := .arming, armTimer := some 100 } := by
  simp [armFlight, armingSteps]

theorem armFlight_axis (f : FlightId) (s : State) (n : AxisId) :
    (armFlight f s).axis n =
      if n ∈ (s.flight f).members then
        { s.axis n with state := .releasing, setPoint := (s.axis n).measured.getD (s.axis n).setPoint }
      else s.axis n := by
  simp [armFlight]

theorem armFlight_work (f : FlightId) (s : State) : FlightWork f s (armFlight f s) :=
  ((mapAxes_work _ _ _).trans (updFlight_work _ _ _)).trans (putFlightState_work _ _ _)

theorem parkFlight_flight_same (f : FlightId) (s : State) :
    (parkFlight f s).flight f = { s.flight f with state := .parked, active := none, dwell := none } := by
  simp [parkFlight]

theorem parkFlight_axis (f : FlightId) (s : State) (n : AxisId) :
    (parkFlight f s).axis n = if n ∈ (s.flight f).members then (s.axis n).brakedDown else s.axis n := by
  simp [parkFlight, brakeMembers_axis]

theorem brakeMembers_work (f : FlightId) (s : State) : FlightWork f s (brakeMembers f s) := mapAxes_work _ _ _

theorem parkFlight_work (f : FlightId) (s : State) : FlightWork f s (parkFlight f s) :=
  ((brakeMembers_work _ _).trans (updFlight_work _ _ _)).trans (putFlightState_work _ _ _)

/-- The record of a member after an accepted RESET-FLIGHT (05, R100). -/
def Axis.recovered (a : Axis) : Axis := if a.state = .faulted then { a with state := .braked, faultCause := none } else a

theorem resetTripped_flight_same (f : FlightId) (s : State) :
    (resetTripped f s).flight f =
      { s.flight f with state := .parked, active := none, tripCause := none, furtherTrips := false } := by
  simp [resetTripped]

theorem resetTripped_axis (f : FlightId) (s : State) (n : AxisId) :
    (resetTripped f s).axis n = if n ∈ (s.flight f).members then (s.axis n).recovered.brakedDown else s.axis n := by
  unfold resetTripped
  rw [putFlightState_axis, State.updFlight_axis, brakeMembers_axis, State.mapAxes_flight, State.mapAxes_axis]
  by_cases hn : n ∈ (s.flight f).members <;> simp [hn, Axis.recovered]

theorem resetTripped_work (f : FlightId) (s : State) : FlightWork f s (resetTripped f s) :=
  (((mapAxes_work _ _ _).trans (brakeMembers_work _ _)).trans (updFlight_work _ _ _)).trans (putFlightState_work _ _ _)

theorem abortArming_work (f : FlightId) (cause : HoldCause) (s : State) : FlightWork f s (abortArming f cause s) :=
  ⟨abortArming_motion _ _ _, abortArming_others _ _ _⟩

/-- What an axis fault does, by whether it has an effect and whether the axis is bound (01, R3; 04, R76). -/
theorem faultAxis_cases (n : AxisId) (cause : FaultCause) (s : State) :
    ((s.axis n).state = .unconfigured ∨ (s.axis n).state = .faulted) ∧ faultAxis n cause s = s ∨
    ((s.axis n).state = .braked ∨ (s.axis n).state = .releasing ∨ (s.axis n).state = .following) ∧
      ((s.axis n).flight = none ∧
          faultAxis n cause s = putAxis n (fun a => { a with state := .faulted, faultCause := some cause }) s ∨
        ∃ f, (s.axis n).flight = some f ∧ faultAxis n cause s =
          tripFlight f (.axisFault cause n) (putAxis n (fun a => { a with state := .faulted, faultCause := some cause }) s)) := by
  cases state : (s.axis n).state
  case unconfigured => exact .inl ⟨.inl rfl, faultAxis_idle (.inl state)⟩
  case faulted => exact .inl ⟨.inr rfl, faultAxis_idle (.inr state)⟩
  all_goals
    refine .inr ⟨by simp, ?_⟩
    rw [faultAxis_taken (by simp [state])]
    cases bound : (s.axis n).flight
    · exact .inl ⟨rfl, rfl⟩
    · exact .inr ⟨_, rfl, rfl⟩

/-- The record of an axis with a miss counted (07, R133, R134). -/
def Axis.missed (a : Axis) (kind : ExchangeKind) : Axis :=
  { a with missedStreak := missedStreakAfter a, writeStreak := writeStreakAfter a kind }

/-- What a miss does: the streaks counted, and at 3 the fault of 07, R133 and R134. -/
theorem countMiss_cases (n : AxisId) (kind : ExchangeKind) (s : State) :
    let counted := s.updAxis n fun a => a.missed kind
    let due := missedStreakAfter (s.axis n) = 3 ∨ kind = .write ∧ writeStreakAfter (s.axis n) kind = 3
    due ∧ countMiss n kind s = faultAxis n .driveSilent counted ∨ ¬due ∧ countMiss n kind s = counted := by
  simp only [Axis.missed, ← missedAfter_eq, ← writesAfter_eq]
  unfold countMiss
  dsimp only [streakLimit]
  by_cases due : missedAfter (s.axis n) = 3 ∨ kind = .write ∧ writesAfter (s.axis n) kind = 3
  · exact .inl ⟨due, if_pos due⟩
  · exact .inr ⟨due, if_neg due⟩

/-- What an act makes of a flight's record. -/
inductive FlightChange (r : Flight) : Flight → Prop
  | same : FlightChange r r
  | move (ms : List Axis) {r' : Flight} (h : FlightMove ms r r') : FlightChange r r'
  | trip (cause : TripCause) : FlightChange r (r.afterTrip cause)
  | abort (cause : HoldCause) : FlightChange r (r.afterAbort cause)
  | park (h : r.state = .ready ∨ r.state = .held) :
      FlightChange r { r with state := .parked, active := none, dwell := none }
  | reset (h : r.state = .tripped) :
      FlightChange r { r with state := .parked, active := none, tripCause := none, furtherTrips := false }
  | confirm (h : r.state = .arming) : FlightChange r { r with state := .ready, armTimer := none }
  | claim (c : Option Station) : FlightChange r { r with claim := c }
  | bind (ns : List AxisId) (h : r.state = .free ∨ r.state = .parked) :
      FlightChange r { r with state := .parked, members := ns, queue := [], queueLow := false }
  | unbind (h : r.state = .parked) :
      FlightChange r { r with state := .free, members := [], queue := [], queueLow := false, holdCause := none }
  | arm (h : r.state = .parked) : FlightChange r { r with state := .arming, armTimer := some 100 }
  | restart : FlightChange r Flight.reset

/-- Work on flight g that makes a change of its record makes one of every flight's. -/
theorem FlightWork.flightChange {g : FlightId} {s t : State} (work : FlightWork g s t)
    (h : FlightChange (s.flight g) (t.flight g)) (f : FlightId) : FlightChange (s.flight f) (t.flight f) := by
  by_cases e : f = g
  · subst e; exact h
  · rw [work.others f e]; exact .same

theorem FlightChange.of_flights {s t : State} (h : t.flights = s.flights) (f : FlightId) :
    FlightChange (s.flight f) (t.flight f) := by
  have : t.flight f = s.flight f := by simp [State.flight, h]
  rw [this]; exact .same

theorem faultAxis_flightChange (n : AxisId) (cause : FaultCause) (s : State) (f : FlightId) :
    FlightChange (s.flight f) ((faultAxis n cause s).flight f) := by
  rcases faultAxis_cases n cause s with ⟨-, e⟩ | ⟨-, ⟨-, e⟩ | ⟨g, -, e⟩⟩ <;> rw [e]
  · exact .same
  · exact .of_flights rfl f
  · refine FlightWork.flightChange (s := putAxis n _ s) (tripFlight_work g _ _) ?_ f
    rw [tripFlight_flight_same]; exact .trip _

theorem assertReset_flight (s : State) (f : FlightId) : (assertReset s).flight f = Flight.reset :=
  Vector.getElem_replicate _

theorem assertReset_axis (s : State) (n : AxisId) : (assertReset s).axis n = Axis.reset := Vector.getElem_replicate _

theorem setClaim_flight_same (f : FlightId) (c : Option Station) (s : State) :
    (setClaim f c s).flight f = { s.flight f with claim := c } := State.updFlight_flight_same _ _ _

/-- The read that leaves no member of an ARMING flight RELEASING, and every other (01, R14). -/
theorem confirmArming_cases (n : AxisId) (s : State) :
    confirmArming n s = s ∨
      ∃ f, (s.axis n).flight = some f ∧ (s.flight f).state = .arming ∧
        (∀ m ∈ (s.flight f).members, (s.axis m).state ≠ .releasing) ∧
        confirmArming n s = putFlightState f .ready (s.updFlight f fun r => { r with armTimer := none }) := by
  unfold confirmArming
  split
  · exact .inl rfl
  · rename_i f bound
    split
    · rename_i h
      refine .inr ⟨f, bound, h.1, ?_, rfl⟩
      simpa using h.2
    · exact .inl rfl

theorem Act.flightChange {s t : State} (h : Act s t) (f : FlightId) : FlightChange (s.flight f) (t.flight f) := by
  cases h with
  | quiet h => exact .of_flights h.flights f
  | fly g h => exact h.work.flightChange (.move _ h.move) f
  | trip g cause => exact (tripFlight_work g cause s).flightChange (by rw [tripFlight_flight_same]; exact .trip _) f
  | abort g cause => exact (abortArming_work g cause s).flightChange (by rw [abortArming_flight_same]; exact .abort _) f
  | park g _ state => exact (parkFlight_work g s).flightChange (by rw [parkFlight_flight_same]; exact .park state) f
  | resetFlight g _ state =>
    exact (resetTripped_work g s).flightChange (by rw [resetTripped_flight_same]; exact .reset state) f
  | fault n cause => exact faultAxis_flightChange n cause s f
  | miss n kind =>
    rcases countMiss_cases n kind s with ⟨-, e⟩ | ⟨-, e⟩ <;> rw [e]
    · exact faultAxis_flightChange n _ (s.updAxis n _) f
    · exact .of_flights rfl f
  | axis n h => exact .of_flights h.flights f
  | track n pos => exact .of_flights rfl f
  | confirm n =>
    rcases confirmArming_cases n s with e | ⟨g, -, arming, -, e⟩ <;> rw [e]
    · exact .same
    · exact ((updFlight_work _ _ _).trans (putFlightState_work _ _ _)).flightChange (by simpa using .confirm arming) f
  | claim g st => exact (updFlight_work g _ s).flightChange (by rw [State.updFlight_flight_same]; exact .claim _) f
  | release g => exact (updFlight_work g _ s).flightChange (by rw [State.updFlight_flight_same]; exact .claim _) f
  | bind g ns _ fits =>
    exact (bindMembers_work g ns s).flightChange
      (by rw [bindMembers_flight_same g ns s fits.state]; exact .bind ns fits.state) f
  | unbind g _ parked =>
    exact (unbindMembers_work g s).flightChange (by rw [unbindMembers_flight_same]; exact .unbind parked) f
  | configure n p =>
    refine .of_flights ?_ f
    unfold configureAxis; dsimp only; split <;> rfl
  | slot k r => exact .of_flights rfl f
  | reset => rw [assertReset_flight]; exact .restart

theorem armTaken_flightChange {s t : State} (h : ArmTaken s t) (f : FlightId) : FlightChange (s.flight f) (t.flight f) := by
  obtain ⟨st, g, u, v, kind, ans, quiet, fits, rfl⟩ := h
  have same : u.flight f = s.flight f := by simp [State.flight, quiet.flights]
  rw [← same]
  exact FlightWork.flightChange (armFlight_work g u) (by rw [armFlight_flight_same]; exact .arm fits.parked) f

/-- What every change of a flight's record keeps of each record, every step keeps of each record. -/
theorem step_keeps_flights {P : Flight → Prop} (change : ∀ r r', FlightChange r r' → P r → P r') {s t : State}
    (h : step s = .next t) (hs : ∀ f, P (s.flight f)) : ∀ f, P (t.flight f) := by
  obtain ⟨rest, ran⟩ := step_ran h
  rcases ran with acts | arm
  · exact acts.keeps (P := fun u => ∀ f, P (u.flight f)) (fun u v act hu f => change _ _ (act.flightChange f) (hu f)) hs
  · exact fun f => change _ _ (armTaken_flightChange arm f) (hs f)

/-! ## The optional parts of a flight's record (01, R9; 03, R45; 05, R89, R95, R97) -/

/-- The optional parts that a record has in the state x. -/
def Flight.ShapedAs (r : Flight) (x : FlightState) : Prop :=
  (match x with
    | .free | .parked | .arming | .ready => r.active = none ∧ r.dwell = none
    | .moving | .stopping => r.active ≠ none ∧ r.dwell = none
    | .dwell => r.active = none ∧ r.dwell ≠ none
    | .held => r.active = none ∨ r.dwell = none
    | .tripped => r.dwell = none) ∧
  (r.armTimer ≠ none ↔ x = .arming) ∧ (r.tripCause ≠ none ↔ x = .tripped) ∧ (r.furtherTrips = true → x = .tripped)

theorem flightShaped_iff (r : Flight) : FlightShaped r ↔ r.ShapedAs r.state := by
  constructor
  · rintro ⟨rest, path, dwell, held, tripped, timer, cause, further⟩
    refine ⟨?_, timer, cause, further⟩
    cases e : r.state <;> simp_all
  · rintro ⟨parts, timer, cause, further⟩
    refine ⟨fun h => ?_, fun h => ?_, fun h => ?_, fun h => ?_, fun h => ?_, timer, cause, further⟩
    · rcases h with e | e | e | e <;> rw [e] at parts <;> exact parts
    · rcases h with e | e <;> rw [e] at parts <;> exact parts
    all_goals rw [h] at parts; exact parts

theorem StartMove.shaped {ms : List Axis} {byCue : Bool} {r r' : Flight} (h : StartMove ms byCue r r')
    (calm : r.ShapedAs .ready) : r'.ShapedAs r'.state := by
  cases h <;> simp_all [Flight.ShapedAs, Flight.rejected, Flight.started]

theorem FollowMove.shaped {ms : List Axis} {r r' : Flight} (h : FollowMove ms r r') (calm : r.ShapedAs .ready) :
    r'.ShapedAs r'.state := by
  cases h with
  | ready => exact calm
  | start h => exact h.shaped calm

theorem FlightMove.shaped {ms : List Axis} {r r' : Flight} (h : FlightMove ms r r') (hr : r.ShapedAs r.state) :
    r'.ShapedAs r'.state := by
  cases h with
  | hold cause => unfold Flight.afterHold; split <;> simp_all [Flight.ShapedAs]
  | start ready h => exact h.shaped (ready ▸ hr)
  | resumeMoving act held active => rw [held] at hr; simp_all [Flight.ShapedAs]
  | resumeDwell held active dwell => rw [held] at hr; simp_all [Flight.ShapedAs]
  | resumeReady held active dwell => rw [held] at hr; simp_all [Flight.ShapedAs]
  | cancel held => rw [held] at hr; simp_all [Flight.ShapedAs]
  | gate | append | flush | limits => exact hr
  | countDwell d state dwell => rw [state] at hr; simp_all [Flight.ShapedAs]
  | endDwell state h => rw [state] at hr; exact h.shaped (by simp_all [Flight.ShapedAs])
  | countArming k state timer => rw [state] at hr; simp_all [Flight.ShapedAs]
  | advance act state active => rw [state] at hr; simp_all [Flight.ShapedAs]
  | complete act state active dwell => rw [state] at hr; simp_all [Flight.ShapedAs, Flight.landed, Flight.closed]
  | completeFollow act state active dwell h =>
    rw [state] at hr
    exact h.shaped (by simp_all [Flight.ShapedAs, Flight.closed])
  | brake act state active => rw [state] at hr; simp_all [Flight.ShapedAs]
  | stand act state active => rw [state] at hr; simp_all [Flight.ShapedAs]
  | land act state active => rw [state] at hr; simp_all [Flight.ShapedAs, Flight.landed, Flight.closed]

theorem FlightChange.shaped {r r' : Flight} (h : FlightChange r r') (hr : r.ShapedAs r.state) : r'.ShapedAs r'.state := by
  cases h with
  | same => exact hr
  | move ms h => exact h.shaped hr
  | trip cause => unfold Flight.afterTrip; split <;> simp_all [Flight.ShapedAs]
  | abort cause => unfold Flight.afterAbort; split <;> simp_all [Flight.ShapedAs]
  | park h => rcases h with e | e <;> rw [e] at hr <;> simp_all [Flight.ShapedAs]
  | reset h => rw [h] at hr; simp_all [Flight.ShapedAs]
  | confirm h => rw [h] at hr; simp_all [Flight.ShapedAs]
  | claim c => exact hr
  | bind ns h => rcases h with e | e <;> rw [e] at hr <;> simp_all [Flight.ShapedAs]
  | unbind h => rw [h] at hr; simp_all [Flight.ShapedAs]
  | arm h => rw [h] at hr; simp_all [Flight.ShapedAs]
  | restart => simp [Flight.ShapedAs, Flight.reset]

/-- Settles O7: every change that an act makes of a flight's record keeps the parts that its state allows. -/
theorem stepKeepsFlightShapes : Obligations.StepKeepsFlightShapes := by
  intro s t shaped h
  refine step_keeps_flights (fun r r' change hr => ?_) h shaped
  rw [flightShaped_iff] at hr ⊢
  exact change.shaped hr

end Sys2Proof.Machine
end

section
namespace Sys2Proof.Machine

/-! ## What an act makes of each axis's record -/

theorem brakedDown_of_unreleased {a : Axis} (h : a.released = false) : a.brakedDown = a := by
  simp [Axis.brakedDown, h]

/-- The record of an axis that a fault takes to FAULTED (01, R3). -/
def Axis.faulted (a : Axis) (cause : FaultCause) : Axis := { a with state := .faulted, faultCause := some cause }

theorem faulted_released (a : Axis) (cause : FaultCause) : (a.faulted cause).released = false := rfl

/-- What a fault that has an effect makes of its own axis and of the others (01, R3, R11; 04, R76). -/
theorem faultAxis_axes {n : AxisId} {cause : FaultCause} {s : State}
    (h : (s.axis n).state = .braked ∨ (s.axis n).state = .releasing ∨ (s.axis n).state = .following) :
    (faultAxis n cause s).axis n = (s.axis n).faulted cause ∧
      ∀ m, m ≠ n →
        ((s.axis n).flight = none → (faultAxis n cause s).axis m = s.axis m) ∧
        ∀ f, (s.axis n).flight = some f → (faultAxis n cause s).axis m =
          if (s.flight f).state.trips = true ∧ m ∈ (s.flight f).members then (s.axis m).brakedDown else s.axis m := by
  rcases faultAxis_cases n cause s with ⟨idle, -⟩ | ⟨-, ⟨unbound, e⟩ | ⟨f, bound, e⟩⟩
  · rcases idle with e | e <;> simp [e] at h
  · rw [e]
    exact ⟨putAxis_axis_same _ _ _, fun m ne => ⟨fun _ => by rw [putAxis_axis, if_neg ne], fun f bound => by simp [unbound] at bound⟩⟩
  · rw [e]
    refine ⟨?_, fun m ne => ?_⟩
    · rw [tripFlight_axis, putAxis_axis_same]
      split
      · exact brakedDown_of_unreleased (faulted_released _ cause)
      · rfl
    · refine ⟨fun unbound => by simp [bound] at unbound, fun g hg => ?_⟩
      obtain rfl : f = g := Option.some.inj (bound.symm.trans hg)
      rw [tripFlight_axis, putAxis_axis, if_neg ne]
      rfl

/-- What an act makes of an axis's record. -/
inductive AxisChange (a : Axis) : Axis → Prop
  | rope (x : Int) : AxisChange a { a with setPoint := x }
  | move {a' : Axis} (h : AxisMove a a') : AxisChange a a'
  | brake : AxisChange a a.brakedDown
  | recover (h : a.missedStreak ≠ 3) : AxisChange a a.recovered.brakedDown
  | fault (cause : FaultCause) (h : a.state = .braked ∨ a.state = .releasing ∨ a.state = .following) :
      AxisChange a (a.faulted cause)
  | miss (kind : ExchangeKind)
      (h : ¬(missedStreakAfter a = 3 ∨ kind = .write ∧ writeStreakAfter a kind = 3) ∨ a.state = .unconfigured ∨
        a.state = .faulted) : AxisChange a (a.missed kind)
  | missFault (kind : ExchangeKind) (h : a.state = .braked ∨ a.state = .releasing ∨ a.state = .following) :
      AxisChange a ((a.missed kind).faulted .driveSilent)
  | bind (f : Option FlightId) : AxisChange a { a with flight := f }
  | bindBraked (f : FlightId) : AxisChange a { a.brakedDown with flight := some f }
  | configure (p : AxisParams) (range : p.InRange) (streak : a.missedStreak ≠ 3) : AxisChange a (a.configured p)
  | restart : AxisChange a Axis.reset

theorem AxisChange.same (a : Axis) : AxisChange a a := .rope a.setPoint

theorem AxisChange.of_axes {s t : State} (h : t.axes = s.axes) (n : AxisId) : AxisChange (s.axis n) (t.axis n) := by
  have : t.axis n = s.axis n := by simp [State.axis, h]
  rw [this]; exact .same _

theorem AxisChange.brake_if {s : State} {n : AxisId} {c : Prop} [Decidable c] :
    AxisChange (s.axis n) (if c then (s.axis n).brakedDown else s.axis n) := by
  split
  · exact .brake
  · exact .same _

/-- A fault makes its own axis FAULTED and may brake the others. -/
theorem faultAxis_axisChange {m : AxisId} {cause : FaultCause} {s : State}
    (live : (s.axis m).state = .braked ∨ (s.axis m).state = .releasing ∨ (s.axis m).state = .following) {n : AxisId}
    (ne : n ≠ m) : AxisChange (s.axis n) ((faultAxis m cause s).axis n) := by
  obtain ⟨unbound, bound⟩ := (faultAxis_axes (cause := cause) live).2 n ne
  cases h : (s.axis m).flight with
  | none => rw [unbound h]; exact .same _
  | some f => rw [bound f h]; exact .brake_if

theorem configureAxis_axis (n m : AxisId) (p : AxisParams) (s : State) :
    (configureAxis n p s).axis m = if m = n then (s.axis m).configured p else s.axis m := by
  unfold configureAxis
  dsimp only
  split <;> exact putAxis_axis _ _ _ _

theorem Act.axisChange {s t : State} (h : Act s t) (n : AxisId) : AxisChange (s.axis n) (t.axis n) := by
  cases h with
  | quiet h => exact .of_axes h.axes n
  | fly f h => rw [h.ropes.axis n]; exact .rope _
  | trip f cause => rw [tripFlight_axis]; exact .brake_if
  | abort f cause => rw [abortArming_axis]; exact .brake_if
  | park f => rw [parkFlight_axis]; exact .brake_if
  | resetFlight f _ _ streaks =>
    rw [resetTripped_axis]
    split
    · exact .recover (streaks n ‹_›)
    · exact .same _
  | fault m cause =>
    rcases faultAxis_cases m cause s with ⟨-, e⟩ | ⟨live, -⟩
    · rw [e]; exact .same _
    · by_cases e : n = m
      · subst e; rw [(faultAxis_axes live).1]; exact .fault cause live
      · exact faultAxis_axisChange live e
  | miss m kind =>
    have own : (s.updAxis m fun a => a.missed kind).axis m = (s.axis m).missed kind := State.updAxis_axis_same _ _ _
    have other (e : n ≠ m) : (s.updAxis m fun a => a.missed kind).axis n = s.axis n := by
      rw [State.updAxis_axis, if_neg e]
    rcases countMiss_cases m kind s with ⟨-, e⟩ | ⟨free, e⟩ <;> rw [e]
    · rcases faultAxis_cases m .driveSilent (s.updAxis m fun a => a.missed kind) with ⟨idle, e⟩ | ⟨live, -⟩
      · rw [e]
        by_cases e : n = m
        · subst e; rw [own] at idle ⊢; exact .miss kind (.inr idle)
        · rw [other e]; exact .same _
      · by_cases e : n = m
        · subst e
          rw [(faultAxis_axes live).1, own]
          rw [own] at live
          exact .missFault kind live
        · have change := faultAxis_axisChange (cause := .driveSilent) live e
          rwa [other e] at change
    · by_cases e : n = m
      · subst e; rw [own]; exact .miss kind (.inl free)
      · rw [other e]; exact .same _
  | axis m h =>
    by_cases e : n = m
    · subst e; exact .move h.move
    · rw [h.others n e]; exact .same _
  | track m pos =>
    rw [State.updAxis_axis]
    split
    · exact .rope _
    · exact .same _
  | confirm m =>
    rcases confirmArming_cases m s with e | ⟨g, -, -, -, e⟩ <;> rw [e]
    · exact .same _
    · exact .of_axes rfl n
  | claim f st => exact .of_axes rfl n
  | release f => exact .of_axes rfl n
  | bind f ns =>
    rw [bindMembers_axis]
    repeat' split
    · exact .bindBraked f
    · exact .bind _
    · exact .bind _
    · exact .same _
  | unbind f =>
    rw [unbindMembers_axis]
    split
    · exact .bind _
    · exact .same _
  | configure m p _ fits =>
    rw [configureAxis_axis]
    split
    · rename_i e; subst e; exact .configure p fits.range fits.streak
    · exact .same _
  | slot k r => exact .of_axes rfl n
  | reset => rw [assertReset_axis]; exact .restart

/-- An ARM leaves an axis alone or releases it, and only one that is BRAKED (01, R13). -/
theorem armTaken_axis {s t : State} (h : ArmTaken s t) (rig : RigSound s) (n : AxisId) :
    t.axis n = s.axis n ∨ (s.axis n).state = .braked ∧ ∃ x, t.axis n = { s.axis n with state := .releasing, setPoint := x } := by
  obtain ⟨st, f, u, v, kind, ans, quiet, fits, rfl⟩ := h
  have axis (n : AxisId) : u.axis n = s.axis n := by simp [State.axis, quiet.axes]
  have flight : u.flight f = s.flight f := by simp [State.flight, quiet.flights]
  show (armFlight f u).axis n = _ ∨ _ ∧ ∃ x, (armFlight f u).axis n = _
  rw [armFlight_axis, axis, flight]
  split
  · rename_i member
    exact .inr ⟨rig.parked f n member (flight ▸ fits.parked), _, rfl⟩
  · exact .inl rfl

/-! ## Ranges and queues (01, sections 1.1, 1.2; 02, section 2.1, R23; 08, R149, R150) -/

/-- The fields of a flight's record in their ranges, and its queue within 8 records. -/
structure FlightInRange (r : Flight) : Prop where
  queue : r.queue.length ≤ 8 ∧ ∀ seg ∈ r.queue, seg.InRange
  active : ∀ act, r.active = some act → act.seg.InRange
  limits : 1 ≤ r.holdDecel ∧ r.holdDecel ≤ 1024 ∧ -4095 ≤ r.loadMin ∧ r.loadMin ≤ r.loadMax ∧ r.loadMax ≤ 4095
  timers : (∀ d, r.dwell = some d → d ≤ 65535) ∧ ∀ t, r.armTimer = some t → t ≤ 100

theorem recordsInRange_iff (s : State) :
    RecordsInRange s ↔ (∀ f, FlightInRange (s.flight f)) ∧ (∀ n p, (s.axis n).params = some p → p.InRange) ∧
      ∀ k, (s.slot k).InRange :=
  ⟨fun h => ⟨fun f => ⟨h.queue f, h.active f, h.limits f, h.timers f⟩, h.params, h.slots⟩,
    fun ⟨f, p, k⟩ => ⟨fun g => (f g).queue, fun g => (f g).active, fun g => (f g).limits, fun g => (f g).timers, p, k⟩⟩

/-- The segments of a record, waiting and active, are in range. -/
theorem FlightInRange.closed {r : Flight} (hr : FlightInRange r) {act : Active} (active : r.active = some act) :
    FlightInRange (r.closed act) := by
  refine ⟨?_, by simp [Flight.closed], hr.limits, hr.timers⟩
  show (recycledQueue act r.queue).length ≤ 8 ∧ ∀ seg ∈ recycledQueue act r.queue, seg.InRange
  unfold recycledQueue
  split
  · rename_i room
    refine ⟨by rw [List.length_append, List.length_singleton]; omega, fun seg hseg => ?_⟩
    rcases List.mem_append.mp hseg with old | new
    · exact hr.queue.2 seg old
    · obtain rfl := List.mem_singleton.mp new
      exact hr.active act active
  · exact hr.queue

theorem StartMove.inRange {ms : List Axis} {byCue : Bool} {r r' : Flight} (h : StartMove ms byCue r r')
    (hr : FlightInRange r) : FlightInRange r' := by
  have tail {seg : Segment} {rest : List Segment} (queue : r.queue = seg :: rest) :
      (rest.length ≤ 8 ∧ ∀ x ∈ rest, x.InRange) ∧ seg.InRange := by
    obtain ⟨len, all⟩ := hr.queue
    rw [queue] at len all
    exact ⟨⟨by simp at len; omega, fun x hx => all x (List.mem_cons_of_mem _ hx)⟩, all seg List.mem_cons_self⟩
  cases h with
  | rejected seg rest queue => exact ⟨(tail queue).1, hr.active, hr.limits, hr.timers⟩
  | started seg rest queue =>
    refine ⟨(tail queue).1, fun act h => ?_, hr.limits, hr.timers⟩
    obtain rfl := Option.some.inj h
    exact (tail queue).2

theorem FollowMove.inRange {ms : List Axis} {r r' : Flight} (h : FollowMove ms r r') (hr : FlightInRange r) :
    FlightInRange r' := by
  cases h with
  | ready => exact ⟨hr.queue, hr.active, hr.limits, hr.timers⟩
  | start h => exact h.inRange hr

/-- A record with another path state of the same segment. -/
theorem FlightInRange.repath {r : Flight} (hr : FlightInRange r) {act next : Active} (active : r.active = some act)
    (seg : next.seg = act.seg) (x : FlightState) : FlightInRange { r with state := x, active := some next } := by
  refine ⟨hr.queue, fun a h => ?_, hr.limits, hr.timers⟩
  obtain rfl := Option.some.inj h
  rw [seg]
  exact hr.active act active

/-- A record with its dwell remaining removed. -/
theorem FlightInRange.undwelt {r : Flight} (hr : FlightInRange r) : FlightInRange { r with dwell := none } :=
  ⟨hr.queue, hr.active, hr.limits, by simp, hr.timers.2⟩

theorem FlightInRange.landed {r : Flight} (hr : FlightInRange r) {act : Active} (active : r.active = some act)
    (x : FlightState) : FlightInRange (r.landed act x) := by
  obtain ⟨queue, act', limits, timers⟩ := hr.closed active
  refine ⟨queue, act', limits, fun d h => ?_, timers.2⟩
  change (if act.seg.dwell = 0 then r.dwell else some act.seg.dwell) = some d at h
  split at h
  · exact hr.timers.1 d h
  · obtain rfl := Option.some.inj h
    exact (hr.active act active).2.2.2.2.2.2

theorem FlightMove.inRange {ms : List Axis} {r r' : Flight} (h : FlightMove ms r r') (hr : FlightInRange r) :
    FlightInRange r' := by
  cases h with
  | hold cause =>
    unfold Flight.afterHold
    split
    case h_6 =>
      refine ⟨hr.queue, fun act h => ?_, hr.limits, hr.timers⟩
      obtain ⟨old, active, rfl⟩ := Option.map_eq_some_iff.mp h
      exact hr.active old active
    all_goals exact ⟨hr.queue, hr.active, hr.limits, hr.timers⟩
  | start ready h => exact h.inRange hr
  | resumeMoving act held active => exact hr.repath (next := { act with speed := 0, aStop := none }) active rfl _
  | resumeDwell | resumeReady | gate => exact ⟨hr.queue, hr.active, hr.limits, hr.timers⟩
  | cancel => exact ⟨hr.queue, by simp, hr.limits, by simp, hr.timers.2⟩
  | append seg bound room fits =>
    refine ⟨⟨by simp; omega, fun x hx => ?_⟩, hr.active, hr.limits, hr.timers⟩
    rcases List.mem_append.mp hx with old | new
    · exact hr.queue.2 x old
    · obtain rfl := List.mem_singleton.mp new
      exact fits
  | flush => exact ⟨by simp, hr.active, hr.limits, hr.timers⟩
  | limits decel lo hi d l order h => exact ⟨hr.queue, hr.active, ⟨d.1, d.2, l, order, h⟩, hr.timers⟩
  | countDwell d state dwell =>
    refine ⟨hr.queue, hr.active, hr.limits, fun k h => ?_, hr.timers.2⟩
    obtain rfl := Option.some.inj h
    have := hr.timers.1 d dwell
    omega
  | endDwell state h => exact h.inRange hr.undwelt
  | countArming k state timer =>
    refine ⟨hr.queue, hr.active, hr.limits, hr.timers.1, fun j h => ?_⟩
    obtain rfl := Option.some.inj h
    have := hr.timers.2 k timer
    omega
  | advance act state active | brake act state active | stand act state active => exact hr.repath active (by rfl) _
  | complete act state active => exact hr.landed active _
  | completeFollow act state active dwell h => exact h.inRange (hr.closed active)
  | land act state active => exact hr.landed active _

theorem FlightChange.inRange {r r' : Flight} (h : FlightChange r r') (hr : FlightInRange r) : FlightInRange r' := by
  cases h with
  | same => exact hr
  | move ms h => exact h.inRange hr
  | trip cause =>
    unfold Flight.afterTrip
    split
    case h_1 => exact hr
    case h_2 => exact ⟨hr.queue, hr.active, hr.limits, hr.timers⟩
    all_goals exact ⟨hr.queue, hr.active, hr.limits, by simp⟩
  | abort cause =>
    unfold Flight.afterAbort
    split
    · exact ⟨hr.queue, hr.active, hr.limits, hr.timers.1, by simp⟩
    · exact hr
  | park => exact ⟨hr.queue, by simp, hr.limits, by simp, hr.timers.2⟩
  | reset => exact ⟨hr.queue, by simp, hr.limits, hr.timers⟩
  | confirm => exact ⟨hr.queue, hr.active, hr.limits, hr.timers.1, by simp⟩
  | claim => exact ⟨hr.queue, hr.active, hr.limits, hr.timers⟩
  | bind | unbind => exact ⟨by simp, hr.active, hr.limits, hr.timers⟩
  | arm => exact ⟨hr.queue, hr.active, hr.limits, hr.timers.1, by simp⟩
  | restart => constructor <;> simp [Flight.reset]

/-- An axis's parameters stand, are those of a CONFIGURE-AXIS, or are gone with a reset. -/
theorem AxisChange.params {a a' : Axis} (h : AxisChange a a') :
    a'.params = a.params ∨ (∃ p, p.InRange ∧ a'.params = some p) ∨ a'.params = none := by
  have braked (b : Axis) : b.brakedDown.params = b.params := by unfold Axis.brakedDown; split <;> rfl
  cases h with
  | move h => cases h <;> exact .inl rfl
  | brake => exact .inl (braked a)
  | recover => exact .inl ((braked _).trans (by unfold Axis.recovered; split <;> rfl))
  | bindBraked f => exact .inl (braked a)
  | configure p range =>
    refine .inr (.inl ⟨p, range, ?_⟩)
    unfold Axis.configured
    dsimp only
    repeat' split
    all_goals rfl
  | restart => exact .inr (.inr rfl)
  | _ => exact .inl rfl

theorem Act.paramsInRange {s t : State} (h : Act s t) (hs : ∀ n p, (s.axis n).params = some p → p.InRange) :
    ∀ n p, (t.axis n).params = some p → p.InRange := by
  intro n p hp
  rcases (h.axisChange n).params with e | ⟨q, range, e⟩ | e <;> rw [e] at hp
  · exact hs n p hp
  · exact Option.some.inj hp ▸ range
  · cases hp

theorem OnlyMotionChanged.slot {s t : State} (h : OnlyMotionChanged s t) (k : SlotId) : t.slot k = s.slot k := by
  simp [State.slot, h.slots]

theorem Act.slotsInRange {s t : State} (h : Act s t) (hs : ∀ k, (s.slot k).InRange) : ∀ k, (t.slot k).InRange := by
  have same (e : t.slots = s.slots) : ∀ k, (t.slot k).InRange := fun k => by
    have : t.slot k = s.slot k := by simp [State.slot, e]
    rw [this]; exact hs k
  cases h with
  | quiet h => exact same h.slots
  | fly f h => exact same h.work.motion.slots
  | trip f cause => exact same (tripFlight_motion _ _ _).slots
  | abort f cause => exact same (abortArming_motion _ _ _).slots
  | park f => exact same (parkFlight_work _ _).motion.slots
  | resetFlight f => exact same (resetTripped_work _ _).motion.slots
  | fault n cause => exact same (faultAxis_motion _ _ _).slots
  | miss n kind =>
    rcases countMiss_cases n kind s with ⟨-, e⟩ | ⟨-, e⟩
    · exact same (e ▸ (faultAxis_motion _ _ _).slots)
    · exact same (e ▸ rfl)
  | axis n h => exact same h.slots
  | confirm n =>
    rcases confirmArming_cases n s with e | ⟨g, -, -, -, e⟩
    · exact same (by rw [e])
    · exact same (by rw [e]; rfl)
  | bind f ns => exact same (bindMembers_work _ _ _).motion.slots
  | unbind f => exact same (unbindMembers_work _ _).motion.slots
  | configure n p =>
    refine same ?_
    unfold configureAxis
    dsimp only
    split <;> rfl
  | slot k r _ range =>
    intro j
    rw [State.updSlot_slot]
    split
    · rename_i e; subst e; exact range (hs _)
    · exact hs j
  | reset =>
    intro k
    have : (assertReset s).slot k = Slot.reset := Vector.getElem_replicate _
    rw [this]
    simp [Slot.InRange, Slot.reset]
  | track | claim | release => exact same rfl

theorem Act.records {s t : State} (h : Act s t) (hs : RecordsInRange s) : RecordsInRange t := by
  rw [recordsInRange_iff] at hs ⊢
  obtain ⟨flights, params, slots⟩ := hs
  exact ⟨fun f => (h.flightChange f).inRange (flights f), h.paramsInRange params, h.slotsInRange slots⟩

theorem armTaken_records {s t : State} (h : ArmTaken s t) (hs : RecordsInRange s) : RecordsInRange t := by
  rw [recordsInRange_iff] at hs ⊢
  obtain ⟨flights, params, slots⟩ := hs
  refine ⟨fun f => (armTaken_flightChange h f).inRange (flights f), fun n p hp => params n p ?_, fun k => ?_⟩
  all_goals obtain ⟨st, f, u, v, kind, ans, quiet, fits, rfl⟩ := h
  · have axis : u.axis n = s.axis n := by simp [State.axis, quiet.axes]
    change ((armFlight f u).axis n).params = some p at hp
    rw [armFlight_axis, axis] at hp
    split at hp <;> exact hp
  · have slot : (startReply v kind ans (armFlight f u)).slot k = s.slot k := by
      show (armFlight f u).slot k = s.slot k
      rw [(armFlight_work f u).motion.slot]
      simp [State.slot, quiet.slots]
    rw [slot]; exact slots k

/-- What every act and every ARM taken keeps, every step keeps. -/
theorem step_keeps {P : State → Prop} (queue : ∀ s rest, P s → P { s with pending := rest })
    (act : ∀ s t, Act s t → P s → P t) (arm : ∀ s t, ArmTaken s t → P s → P t) {s t : State} (h : step s = .next t)
    (hs : P s) : P t := by
  obtain ⟨rest, acts | armed⟩ := step_ran h
  · exact acts.keeps act (queue s rest hs)
  · exact arm _ _ armed (queue s rest hs)

/-- Settles O8: each record's change by an act stays in the ranges that the decoders of the requests enforce. -/
theorem stepKeepsRecords : Obligations.StepKeepsRecords := by
  intro s t records h
  refine step_keeps (P := RecordsInRange) (fun s rest hs => ?_) (fun _ _ act => act.records)
    (fun _ _ arm => armTaken_records arm) h records
  exact ⟨hs.queue, hs.active, hs.limits, hs.timers, hs.params, hs.slots⟩

end Sys2Proof.Machine
end

section
namespace Sys2Proof.Machine

/-! ## Membership, claims, brakes and drive addresses (01, R8, R9, R11; 06, R106; 07, R125; 09, R169) -/

/-- The states of a flight whose members all FOLLOW. -/
def FlightState.airborne (x : FlightState) : Prop :=
  x = .ready ∨ x = .moving ∨ x = .dwell ∨ x = .stopping ∨ x = .held

theorem FlightState.airborne.ne {x : FlightState} (h : x.airborne) :
    x ≠ .free ∧ x ≠ .parked ∧ x ≠ .arming ∧ x ≠ .tripped := by
  rcases h with rfl | rfl | rfl | rfl | rfl <;> decide

/-- From a sound state s to t every membership stands, a flight's state is the same or stays airborne, and an axis's state is the
same, confirms its release, or is that of an unbound axis. -/
structure RigView (s t : State) : Prop where
  members : ∀ f, (t.flight f).members = (s.flight f).members
  state : ∀ f, (t.flight f).state = (s.flight f).state ∨ (s.flight f).state.airborne ∧ (t.flight f).state.airborne
  claimed : ∀ f, (t.flight f).state.flies → (t.flight f).claim ≠ none
  queue : ∀ f, (s.flight f).state = .free → (t.flight f).queue = []
  bound : ∀ n, (t.axis n).flight = (s.axis n).flight
  axis : ∀ n, (t.axis n).state = (s.axis n).state ∨ (s.axis n).state = .releasing ∧ (t.axis n).state = .following ∨
    (s.axis n).flight = none ∧ (t.axis n).released = false

section
variable {s t : State}

theorem released_congr {a b : Axis} (h : a.state = b.state) : a.released = b.released := by simp [Axis.released, h]

theorem RigView.released_iff (v : RigView s t) {n : AxisId} (bound : (s.axis n).flight ≠ none) :
    (t.axis n).released = true ↔ (s.axis n).released = true := by
  rcases v.axis n with e | ⟨e, e'⟩ | ⟨e, -⟩
  · rw [released_congr e]
  · simp [Axis.released, e, e']
  · exact absurd e bound

/-- A bound axis keeps its state, but that its release may be confirmed. -/
theorem RigView.bound_state (v : RigView s t) {n : AxisId} (bound : (s.axis n).flight ≠ none)
    (unreleased : (s.axis n).state ≠ .releasing) : (t.axis n).state = (s.axis n).state := by
  rcases v.axis n with e | ⟨e, -⟩ | ⟨e, -⟩
  · exact e
  · exact absurd e unreleased
  · exact absurd e bound

theorem RigSound.of_view (rig : RigSound s) (v : RigView s t)
    (configured : ∀ n, (t.axis n).state = .unconfigured ↔ (t.axis n).params = none)
    (addresses : ∀ m n p q, (t.axis m).params = some p → (t.axis n).params = some q → p.address = q.address → m = n) :
    RigSound t := by
  have bound {f : FlightId} {n : AxisId} (h : n ∈ (t.flight f).members) : (s.axis n).flight = some f := by
    rw [v.members] at h; exact (rig.bound f n).mp h
  have grounded {f : FlightId} (h : ¬(t.flight f).state.airborne) : (t.flight f).state = (s.flight f).state := by
    rcases v.state f with e | ⟨-, e⟩
    · exact e
    · exact absurd e h
  have kept {f : FlightId} {n : AxisId} (h : n ∈ (t.flight f).members) (u : (s.axis n).state ≠ .releasing) :
      (t.axis n).state = (s.axis n).state := v.bound_state (by simp [bound h]) u
  refine ⟨fun f => by rw [v.members]; exact rig.members f, fun f n => by rw [v.members, v.bound]; exact rig.bound f n,
    fun f => ?_, fun f free => ?_, configured, fun n bd => ?_, fun n released => ?_, fun f n member state => ?_,
    fun f n member flies na => ?_, fun f n member state => ?_, fun f n member state => ?_, v.claimed, addresses⟩
  · rw [v.members, ← rig.free f]
    rcases v.state f with e | ⟨a, b⟩
    · rw [e]
    · exact ⟨fun h => absurd h b.ne.1, fun h => absurd h a.ne.1⟩
  · have e := grounded fun h => h.ne.1 free
    exact v.queue f (e ▸ free)
  · rw [v.bound] at bd
    have live := rig.boundConfigured n bd
    rcases v.axis n with e | ⟨-, e⟩ | ⟨e, -⟩
    · rw [e]; exact live
    · rw [e]; decide
    · exact absurd e bd
  · have bd : (s.axis n).flight ≠ none := by
      intro unbound
      rcases v.axis n with e | ⟨e, -⟩ | ⟨-, e⟩
      · obtain ⟨f, h, -⟩ := rig.released n (by rwa [← released_congr e])
        simp [unbound] at h
      · obtain ⟨f, h, -⟩ := rig.released n (by simp [Axis.released, e])
        simp [unbound] at h
      · simp [e] at released
    obtain ⟨f, h, flies⟩ := rig.released n ((v.released_iff bd).mp released)
    refine ⟨f, (v.bound n).trans h, ?_⟩
    rcases v.state f with e | ⟨-, e⟩
    · rw [e]; exact flies
    · exact .inr e
  · have e := grounded fun h => h.ne.2.2.1 state
    have := rig.arming f n (v.members f ▸ member) (e ▸ state)
    exact (v.released_iff (by simp [bound member])).mpr this
  · have following : (s.axis n).state = .following := by
      refine rig.following f n (v.members f ▸ member) ?_ ?_ <;> rcases v.state f with e | ⟨e, -⟩
      · rwa [← e]
      · exact .inr e
      · rwa [← e]
      · exact e.ne.2.2.1
    rw [kept member (by simp [following]), following]
  · have e := grounded fun h => h.ne.2.1 state
    have braked := rig.parked f n (v.members f ▸ member) (e ▸ state)
    rw [kept member (by simp [braked]), braked]
  · have e := grounded fun h => h.ne.2.2.2 state
    have down := rig.tripped f n (v.members f ▸ member) (e ▸ state)
    rw [kept member (by rcases down with e | e <;> simp [e])]
    exact down

/-- With every axis's parameters as they were, only states are left to look at. -/
theorem RigSound.of_view_params (rig : RigSound s) (v : RigView s t) (params : ∀ n, (t.axis n).params = (s.axis n).params)
    (configured : ∀ n, (t.axis n).state = .unconfigured ↔ (s.axis n).state = .unconfigured) : RigSound t :=
  rig.of_view v (fun n => by rw [configured, params]; exact rig.configured n)
    fun m n p q hp hq => rig.addresses m n p q (params m ▸ hp) (params n ▸ hq)

/-- A member of a flight that is not TRIPPED is BRAKED, RELEASING or FOLLOWING. -/
theorem RigSound.member_state (rig : RigSound s) {f : FlightId} {n : AxisId} (member : n ∈ (s.flight f).members)
    (up : (s.flight f).state ≠ .tripped) :
    (s.axis n).state = .braked ∨ (s.axis n).state = .releasing ∨ (s.axis n).state = .following := by
  have following (h : (s.flight f).state.airborne) := rig.following f n member (.inr h) h.ne.2.2.1
  cases e : (s.flight f).state with
  | free => simp [(rig.free f).mp e] at member
  | parked => exact .inl (rig.parked f n member e)
  | arming => exact .inr ((released_iff _).mp (rig.arming f n member e))
  | tripped => exact absurd e up
  | ready | moving | dwell | stopping | held => exact .inr (.inr (following (by simp [e, FlightState.airborne])))

theorem brakedDown_state {a : Axis} (h : a.state = .braked ∨ a.state = .releasing ∨ a.state = .following) :
    a.brakedDown.state = .braked := by
  rcases h with e | e | e <;> simp [Axis.brakedDown, Axis.released, e]

theorem brakedDown_flight (a : Axis) : a.brakedDown.flight = a.flight := by unfold Axis.brakedDown; split <;> rfl

theorem brakedDown_params (a : Axis) : a.brakedDown.params = a.params := by unfold Axis.brakedDown; split <;> rfl

/-- A flight brought to PARKED or TRIPPED with its members' brakes applied. -/
structure Grounded (f : FlightId) (s t : State) : Prop where
  bound : (s.flight f).state ≠ .free
  state : (t.flight f).state = .parked ∨ (t.flight f).state = .tripped
  members : (t.flight f).members = (s.flight f).members
  others : OtherFlightsKept f s t
  inside : ∀ n ∈ (s.flight f).members,
    (t.axis n).state = .braked ∨ (t.flight f).state = .tripped ∧ (t.axis n).state = .faulted
  outside : ∀ n, n ∉ (s.flight f).members → (t.axis n).state = (s.axis n).state
  flights : ∀ n, (t.axis n).flight = (s.axis n).flight
  params : ∀ n, (t.axis n).params = (s.axis n).params

theorem RigSound.grounded (rig : RigSound s) {f : FlightId} (g : Grounded f s t) : RigSound t := by
  have members (h : FlightId) : (t.flight h).members = (s.flight h).members := by
    by_cases e : h = f
    · subst e; exact g.members
    · rw [g.others h e]
  have grounded : ¬(t.flight f).state.flies := by
    rcases g.state with e | e <;> rw [e] <;> simp [FlightState.flies]
  have unfree : (t.flight f).state ≠ .free := by rcases g.state with e | e <;> simp [e]
  have away {h : FlightId} {n : AxisId} (ne : h ≠ f) (member : n ∈ (t.flight h).members) :
      (t.axis n).state = (s.axis n).state := by
    refine g.outside n fun inside => ne ?_
    have a := (rig.bound h n).mp (members h ▸ member)
    have b := (rig.bound f n).mp inside
    exact Option.some.inj (a.symm.trans b)
  have notFlying {h : FlightId} (flies : (t.flight h).state.flies) : h ≠ f := by rintro rfl; exact grounded flies
  refine ⟨fun h => by rw [members]; exact rig.members h, fun h n => by rw [members, g.flights]; exact rig.bound h n,
    fun h => ?_, fun h free => ?_, fun n => ?_, fun n bd => ?_, fun n released => ?_, fun h n member state => ?_,
    fun h n member flies na => ?_, fun h n member state => ?_, fun h n member state => ?_, fun h flies => ?_,
    fun m n p q hp hq => rig.addresses m n p q (g.params m ▸ hp) (g.params n ▸ hq)⟩
  · rw [members, ← rig.free h]
    by_cases e : h = f
    · subst e; exact iff_of_false unfree g.bound
    · rw [g.others h e]
  · have ne : h ≠ f := by rintro rfl; exact unfree free
    rw [g.others h ne] at free ⊢
    exact rig.freeQueue h free
  · rw [g.params, ← rig.configured n]
    by_cases inside : n ∈ (s.flight f).members
    · refine iff_of_false ?_ (rig.boundConfigured n (by simp [(rig.bound f n).mp inside]))
      rcases g.inside n inside with e | ⟨-, e⟩ <;> simp [e]
    · rw [g.outside n inside]
  · by_cases inside : n ∈ (s.flight f).members
    · rcases g.inside n inside with e | ⟨-, e⟩ <;> simp [e]
    · rw [g.outside n inside]
      exact rig.boundConfigured n (g.flights n ▸ bd)
  · by_cases inside : n ∈ (s.flight f).members
    · rcases g.inside n inside with e | ⟨-, e⟩ <;> simp [Axis.released, e] at released
    · obtain ⟨h, bd, flies⟩ := rig.released n (by rwa [← released_congr (g.outside n inside)])
      have ne : h ≠ f := by rintro rfl; exact inside ((rig.bound h n).mpr bd)
      exact ⟨h, (g.flights n).trans bd, by rw [g.others h ne]; exact flies⟩
  · have ne := notFlying (.inl state)
    rw [g.others h ne] at state
    rw [released_congr (away ne member)]
    exact rig.arming h n (members h ▸ member) state
  · have ne := notFlying flies
    rw [g.others h ne] at flies na
    rw [away ne member]
    exact rig.following h n (members h ▸ member) flies na
  · by_cases e : h = f
    · subst e
      rcases g.inside n (members h ▸ member) with e | ⟨e, -⟩
      · exact e
      · simp [e] at state
    · rw [away e member]
      rw [g.others h e] at state
      exact rig.parked h n (members h ▸ member) state
  · by_cases e : h = f
    · subst e
      exact (g.inside n (members h ▸ member)).imp id And.right
    · rw [away e member]
      rw [g.others h e] at state
      exact rig.tripped h n (members h ▸ member) state
  · have ne := notFlying flies
    rw [g.others h ne] at flies ⊢
    exact rig.claimed h flies

end

end Sys2Proof.Machine
end

section
namespace Sys2Proof.Machine

/-! ### Every act keeps the rig sound -/

theorem StartMove.view {ms : List Axis} {byCue : Bool} {r r' : Flight} (h : StartMove ms byCue r r') :
    r'.members = r.members ∧ r'.claim = r.claim ∧ r'.state.airborne := by
  cases h <;> simp [Flight.rejected, Flight.started, FlightState.airborne]

theorem FollowMove.view {ms : List Axis} {r r' : Flight} (h : FollowMove ms r r') :
    r'.members = r.members ∧ r'.claim = r.claim ∧ r'.state.airborne := by
  cases h with
  | ready => simp [FlightState.airborne]
  | start h => exact h.view

/-- A move of a flight's record leaves its members and its claim, and its state but for one airborne state to another. -/
theorem FlightMove.view {ms : List Axis} {r r' : Flight} (h : FlightMove ms r r') :
    r'.members = r.members ∧ r'.claim = r.claim ∧
      (r'.state = r.state ∧ (r.state = .free → r.queue = [] → r'.queue = []) ∨ r.state.airborne ∧ r'.state.airborne) := by
  have airborne {x : FlightState} (h : r.state = x) (hx : x.airborne) : r.state.airborne := h ▸ hx
  cases h with
  | hold cause => unfold Flight.afterHold; split <;> simp_all [FlightState.airborne]
  | start ready h =>
    obtain ⟨members, claim, up⟩ := h.view
    exact ⟨members, claim, .inr ⟨airborne ready (.inl rfl), up⟩⟩
  | gate | limits => exact ⟨rfl, rfl, .inl ⟨rfl, fun _ h => h⟩⟩
  | append seg bound => exact ⟨rfl, rfl, .inl ⟨rfl, fun free => absurd free bound⟩⟩
  | flush => exact ⟨rfl, rfl, .inl ⟨rfl, fun _ _ => rfl⟩⟩
  | countDwell | countArming | advance | brake => exact ⟨rfl, rfl, .inl ⟨rfl, fun _ h => h⟩⟩
  | endDwell state h =>
    obtain ⟨members, claim, up⟩ := h.view
    exact ⟨members, claim, .inr ⟨airborne state (by simp [FlightState.airborne]), up⟩⟩
  | completeFollow act state active dwell h =>
    obtain ⟨members, claim, up⟩ := h.view
    exact ⟨members, claim, .inr ⟨airborne state (by simp [FlightState.airborne]), up⟩⟩
  | resumeMoving _ state | resumeDwell state | resumeReady state | cancel state | complete _ state | stand _ state
  | land _ state =>
    exact ⟨rfl, rfl, .inr ⟨airborne state (by simp [FlightState.airborne]), by
      simp [FlightState.airborne, Flight.landed]⟩⟩

section
variable {s t : State}

theorem Flown.rig {f : FlightId} (h : Flown f s t) (rig : RigSound s) : RigSound t := by
  obtain ⟨members, claim, move⟩ := h.move.view
  have every {P : Flight → Flight → Prop} (own : P (s.flight f) (t.flight f)) (rest : ∀ r, P r r) (g : FlightId) :
      P (s.flight g) (t.flight g) := by
    by_cases e : g = f
    · subst e; exact own
    · rw [h.work.others g e]; exact rest _
  have state (g : FlightId) : (t.flight g).state = (s.flight g).state ∨
      (s.flight g).state.airborne ∧ (t.flight g).state.airborne :=
    every (P := fun r r' => r'.state = r.state ∨ r.state.airborne ∧ r'.state.airborne) (move.imp And.left id)
      (fun _ => .inl rfl) g
  refine rig.of_view_params ⟨every (P := fun r r' => r'.members = r.members) members fun _ => rfl, state,
    fun g flies => ?_, fun g free => ?_, fun n => by rw [h.ropes.axis n], fun n => .inl (by rw [h.ropes.axis n])⟩
    (fun n => by rw [h.ropes.axis n]) (fun n => by rw [h.ropes.axis n])
  · rw [every (P := fun r r' => r'.claim = r.claim) claim (fun _ => rfl) g]
    refine rig.claimed g ?_
    rcases state g with e | ⟨e, -⟩
    · rwa [← e]
    · exact .inr e
  · refine every (P := fun r r' => r.state = .free → r.queue = [] → r'.queue = []) (fun free => ?_) (fun _ _ h => h) g
      free (rig.freeQueue g free)
    rcases move with ⟨-, queue⟩ | ⟨up, -⟩
    · exact queue free
    · exact absurd free up.ne.1

/-- Nothing of the flights changed, and of the axes neither a flight nor a state, is a sound view. -/
theorem RigSound.of_flights (rig : RigSound s) (flights : t.flights = s.flights)
    (bound : ∀ n, (t.axis n).flight = (s.axis n).flight) (params : ∀ n, (t.axis n).params = (s.axis n).params)
    (state : ∀ n, (t.axis n).state = (s.axis n).state ∨ (s.axis n).state = .releasing ∧ (t.axis n).state = .following) :
    RigSound t := by
  have flight (f : FlightId) : t.flight f = s.flight f := by simp [State.flight, flights]
  refine rig.of_view_params ⟨fun f => by rw [flight], fun f => .inl (by rw [flight]),
    fun f => by rw [flight]; exact rig.claimed f, fun f => by rw [flight]; exact rig.freeQueue f, bound,
    fun n => (state n).imp id .inl⟩ params fun n => ?_
  rcases state n with e | ⟨e, e'⟩
  · rw [e]
  · simp [e, e']

theorem RigSound.of_quiet (rig : RigSound s) (h : Quiet s t) : RigSound t := by
  have axis (n : AxisId) : t.axis n = s.axis n := by simp [State.axis, h.axes]
  exact rig.of_flights h.flights (fun n => by rw [axis]) (fun n => by rw [axis]) fun n => .inl (by rw [axis])

theorem afterTrip_moved {r : Flight} (h : r.state.trips = true) (cause : TripCause) :
    (r.afterTrip cause).state = .tripped ∧ (r.afterTrip cause).members = r.members := by
  unfold Flight.afterTrip; split <;> simp_all [FlightState.trips]

theorem afterTrip_unmoved {r : Flight} (h : r.state.trips = false) (cause : TripCause) :
    (r.afterTrip cause).state = r.state ∧ (r.afterTrip cause).members = r.members ∧
      (r.afterTrip cause).claim = r.claim ∧ (r.afterTrip cause).queue = r.queue := by
  unfold Flight.afterTrip; split <;> simp_all [FlightState.trips]

theorem trips_iff (x : FlightState) : x.trips = true ↔ x ≠ .free ∧ x ≠ .tripped := by
  simp [FlightState.trips]

/-- A flight record rewritten without a change of its members, its state, its claim and an empty queue. -/
theorem RigSound.of_record (rig : RigSound s) {f : FlightId} (work : OtherFlightsKept f s t) (axes : ∀ n, t.axis n = s.axis n)
    (state : (t.flight f).state = (s.flight f).state) (members : (t.flight f).members = (s.flight f).members)
    (claim : (s.flight f).state.flies → (t.flight f).claim ≠ none) (queue : (t.flight f).queue = (s.flight f).queue) :
    RigSound t := by
  have every {P : Flight → Flight → Prop} (own : P (s.flight f) (t.flight f)) (rest : ∀ r, P r r) (g : FlightId) :
      P (s.flight g) (t.flight g) := by
    by_cases e : g = f
    · subst e; exact own
    · rw [work g e]; exact rest _
  have states := every (P := fun r r' => r'.state = r.state) state fun _ => rfl
  refine rig.of_view_params ⟨every (P := fun r r' => r'.members = r.members) members fun _ => rfl,
    fun g => .inl (states g), fun g flies => ?_, fun g free => ?_, fun n => by rw [axes], fun n => .inl (by rw [axes])⟩
    (fun n => by rw [axes]) (fun n => by rw [axes])
  · rw [states] at flies
    by_cases e : g = f
    · subst e; exact claim flies
    · rw [work g e]; exact rig.claimed g flies
  · exact (every (P := fun r r' => r'.queue = r.queue) queue (fun _ => rfl) g).trans (rig.freeQueue g free)

theorem brake_if_view (a : Axis) (c : Prop) [Decidable c] :
    (if c then a.brakedDown else a).flight = a.flight ∧ (if c then a.brakedDown else a).params = a.params := by
  split
  · exact ⟨brakedDown_flight a, brakedDown_params a⟩
  · exact ⟨rfl, rfl⟩

theorem tripFlight_rig (f : FlightId) (cause : TripCause) (rig : RigSound s) : RigSound (tripFlight f cause s) := by
  by_cases moves : (s.flight f).state.trips = true
  · obtain ⟨state, members⟩ := afterTrip_moved moves cause
    rw [← tripFlight_flight_same] at state members
    have up := (trips_iff _).mp moves
    have axis (n : AxisId) : (tripFlight f cause s).axis n = if n ∈ (s.flight f).members then (s.axis n).brakedDown else
        s.axis n := by rw [tripFlight_axis]; simp [moves]
    refine rig.grounded ⟨up.1, .inr state, members, tripFlight_others _ _ _, fun n inside => ?_, fun n outside => ?_,
      fun n => ?_, fun n => ?_⟩ <;> rw [axis]
    · rw [if_pos inside]; exact .inl (brakedDown_state (rig.member_state inside up.2))
    · rw [if_neg outside]
    · exact (brake_if_view _ _).1
    · exact (brake_if_view _ _).2
  · rw [Bool.not_eq_true] at moves
    obtain ⟨state, members, claim, queue⟩ := afterTrip_unmoved moves cause
    rw [← tripFlight_flight_same] at state members claim queue
    refine rig.of_record (tripFlight_others _ _ _) (fun n => ?_) state members (fun flies => ?_) queue
    · rw [tripFlight_axis, moves]; simp
    · rw [claim]; exact rig.claimed f flies

/-- Members brought BRAKED by the brakes of a flight that is not TRIPPED. -/
theorem RigSound.grounded_braked (rig : RigSound s) {f : FlightId} (others : OtherFlightsKept f s t)
    (bound : (s.flight f).state ≠ .free) (up : (s.flight f).state ≠ .tripped)
    (state : (t.flight f).state = .parked) (members : (t.flight f).members = (s.flight f).members)
    (axis : ∀ n, t.axis n = if n ∈ (s.flight f).members then (s.axis n).brakedDown else s.axis n) : RigSound t := by
  refine rig.grounded ⟨bound, .inl state, members, others, fun n inside => ?_, fun n outside => ?_,
    fun n => ?_, fun n => ?_⟩ <;> rw [axis]
  · rw [if_pos inside]; exact .inl (brakedDown_state (rig.member_state inside up))
  · rw [if_neg outside]
  · exact (brake_if_view _ _).1
  · exact (brake_if_view _ _).2

theorem abortArming_rig (f : FlightId) (cause : HoldCause) (rig : RigSound s) : RigSound (abortArming f cause s) := by
  by_cases arming : (s.flight f).state = .arming
  · refine rig.grounded_braked (abortArming_others _ _ _) (by simp [arming]) (by simp [arming]) ?_ ?_ fun n => ?_
    · simp [abortArming_flight_same, Flight.afterAbort, arming]
    · simp [abortArming_flight_same, Flight.afterAbort, arming]
    · simp [abortArming_axis, arming]
  · have idle : abortArming f cause s = s := by unfold abortArming; split <;> first | rfl | exact absurd ‹_› arming
    rw [idle]; exact rig

theorem resetTripped_rig {f : FlightId} (tripped : (s.flight f).state = .tripped) (rig : RigSound s) :
    RigSound (resetTripped f s) := by
  have same (a : Axis) : a.recovered.brakedDown.flight = a.flight ∧ a.recovered.brakedDown.params = a.params := by
    rw [brakedDown_flight, brakedDown_params]
    unfold Axis.recovered
    split <;> exact ⟨rfl, rfl⟩
  refine rig.grounded ⟨by simp [tripped], .inl (by rw [resetTripped_flight_same]), by rw [resetTripped_flight_same],
    (resetTripped_work f s).others, fun n inside => .inl ?_, fun n outside => ?_, fun n => ?_, fun n => ?_⟩ <;>
    rw [resetTripped_axis]
  · rw [if_pos inside]
    rcases rig.tripped f n inside tripped with e | e <;> simp [Axis.recovered, Axis.brakedDown, Axis.released, e]
  · rw [if_neg outside]
  · split; exacts [(same _).1, rfl]
  · split; exacts [(same _).2, rfl]

theorem faultAxis_rig (n : AxisId) (cause : FaultCause) (rig : RigSound s) : RigSound (faultAxis n cause s) := by
  rcases faultAxis_cases n cause s with ⟨-, e⟩ | ⟨live, ⟨unbound, e⟩ | ⟨f, bound, e⟩⟩
  · rw [e]; exact rig
  · rw [e]
    have axis (m : AxisId) := putAxis_axis n m (fun a => Axis.faulted a cause) s
    refine rig.of_view_params (t := putAxis n (fun a => a.faulted cause) s) ⟨fun _ => rfl, fun _ => .inl rfl,
      fun g => rig.claimed g, fun g => rig.freeQueue g, fun m => ?_, fun m => ?_⟩ (fun m => ?_) fun m => ?_ <;>
      rw [axis] <;> split <;> try rfl
    · rename_i e; subst e; exact .inr (.inr ⟨unbound, rfl⟩)
    · exact .inl rfl
    · rename_i e; subst e
      refine iff_of_false (by simp [Axis.faulted]) fun un => ?_
      rcases live with e | e | e <;> simp [un] at e
  · have member := (rig.bound f n).mpr bound
    have bd : (s.flight f).state ≠ .free := fun free => by simp [(rig.free f).mp free] at member
    have flight : (faultAxis n cause s).flight f = (s.flight f).afterTrip (.axisFault cause n) := by
      rw [e, tripFlight_flight_same]; rfl
    obtain ⟨own, others⟩ := faultAxis_axes (cause := cause) live
    have after : ((s.flight f).afterTrip (.axisFault cause n)).state = .tripped ∧
        ((s.flight f).afterTrip (.axisFault cause n)).members = (s.flight f).members := by
      by_cases moves : (s.flight f).state.trips = true
      · exact afterTrip_moved moves _
      · have : (s.flight f).state = .tripped := by
          by_contra h; exact moves ((trips_iff _).mpr ⟨bd, h⟩)
        obtain ⟨state, members, -⟩ := afterTrip_unmoved (Bool.not_eq_true _ ▸ moves) (.axisFault cause n)
        exact ⟨state.trans this, members⟩
    rw [← flight] at after
    refine rig.grounded ⟨bd, .inr after.1, after.2, fun g ne => ?_, fun m inside => ?_, fun m outside => ?_,
      fun m => ?_, fun m => ?_⟩
    · rw [e, tripFlight_others _ _ _ g ne]; rfl
    · by_cases e : m = n
      · subst e; rw [own]; exact .inr ⟨after.1, rfl⟩
      · rw [(others m e).2 f bound]
        by_cases moves : (s.flight f).state.trips = true
        · rw [if_pos ⟨moves, inside⟩]
          exact .inl (brakedDown_state (rig.member_state inside ((trips_iff _).mp moves).2))
        · rw [if_neg fun h => moves h.1]
          have tripped : (s.flight f).state = .tripped := by
            by_contra h; exact moves ((trips_iff _).mpr ⟨bd, h⟩)
          exact (rig.tripped f m inside tripped).imp id fun e => ⟨after.1, e⟩
    · have ne : m ≠ n := by rintro rfl; exact outside member
      rw [(others m ne).2 f bound, if_neg fun h => outside h.2]
    · by_cases e : m = n
      · subst e; rw [own]; rfl
      · rw [(others m e).2 f bound]; exact (brake_if_view _ _).1
    · by_cases e : m = n
      · subst e; rw [own]; rfl
      · rw [(others m e).2 f bound]; exact (brake_if_view _ _).2

/-- An axis record rewritten without a change of its state, its flight and its parameters. -/
theorem updAxis_rig {n : AxisId} {g : Axis → Axis} (rig : RigSound s)
    (h : ∀ a, (g a).state = a.state ∧ (g a).flight = a.flight ∧ (g a).params = a.params) : RigSound (s.updAxis n g) := by
  refine rig.of_flights rfl (fun m => ?_) (fun m => ?_) fun m => .inl ?_ <;> rw [State.updAxis_axis] <;> split
  · exact (h _).2.1
  · rfl
  · exact (h _).2.2
  · rfl
  · exact (h _).1
  · rfl

theorem AxisMove.view {a a' : Axis} (h : AxisMove a a') :
    a'.flight = a.flight ∧ a'.params = a.params ∧ (a'.state = a.state ∨ a.state = .releasing ∧ a'.state = .following) := by
  cases h with
  | confirmed state => exact ⟨rfl, rfl, .inr ⟨state, rfl⟩⟩
  | _ => exact ⟨rfl, rfl, .inl rfl⟩

theorem AxisMoved.rig {n : AxisId} (h : AxisMoved n s t) (rig : RigSound s) : RigSound t := by
  have view (m : AxisId) : (t.axis m).flight = (s.axis m).flight ∧ (t.axis m).params = (s.axis m).params ∧
      ((t.axis m).state = (s.axis m).state ∨ (s.axis m).state = .releasing ∧ (t.axis m).state = .following) := by
    by_cases e : m = n
    · subst e; exact h.move.view
    · rw [h.others m e]; exact ⟨rfl, rfl, .inl rfl⟩
  exact rig.of_flights h.flights (fun m => (view m).1) (fun m => (view m).2.1) fun m => (view m).2.2

/-! ### Acts that move members, or release their brakes -/

/-- What RigSound says of one flight and its members. -/
structure FlightSound (f : FlightId) (s : State) : Prop where
  members : (s.flight f).members.Nodup ∧ (s.flight f).members.length ≤ 4
  free : (s.flight f).state = .free ↔ (s.flight f).members = []
  freeQueue : (s.flight f).state = .free → (s.flight f).queue = []
  configured : ∀ n ∈ (s.flight f).members, (s.axis n).state ≠ .unconfigured
  released : ∀ n ∈ (s.flight f).members, (s.axis n).released = true → (s.flight f).state.flies
  arming : ∀ n ∈ (s.flight f).members, (s.flight f).state = .arming → (s.axis n).released = true
  following : ∀ n ∈ (s.flight f).members, (s.flight f).state.airborne → (s.axis n).state = .following
  parked : ∀ n ∈ (s.flight f).members, (s.flight f).state = .parked → (s.axis n).state = .braked
  tripped : ∀ n ∈ (s.flight f).members, (s.flight f).state = .tripped →
    (s.axis n).state = .braked ∨ (s.axis n).state = .faulted
  claimed : (s.flight f).state.flies → (s.flight f).claim ≠ none

/-- The rig is sound where each flight is, and where the axes agree with the memberships and with their parameters. -/
theorem rigSound_iff (s : State) :
    RigSound s ↔ (∀ f, FlightSound f s) ∧ (∀ f n, n ∈ (s.flight f).members ↔ (s.axis n).flight = some f) ∧
      (∀ n, (s.axis n).state = .unconfigured ↔ (s.axis n).params = none) ∧
      (∀ n, (s.axis n).flight = none → (s.axis n).released = false) ∧
      ∀ m n p q, (s.axis m).params = some p → (s.axis n).params = some q → p.address = q.address → m = n := by
  constructor
  · intro rig
    refine ⟨fun f => ⟨rig.members f, rig.free f, rig.freeQueue f, fun n hn => ?_, fun n hn released => ?_,
      fun n hn => rig.arming f n hn, fun n hn up => rig.following f n hn (.inr up) up.ne.2.2.1,
      fun n hn => rig.parked f n hn, fun n hn => rig.tripped f n hn, rig.claimed f⟩, rig.bound, rig.configured,
      fun n unbound => ?_, rig.addresses⟩
    · exact rig.boundConfigured n (by simp [(rig.bound f n).mp hn])
    · obtain ⟨g, bound, flies⟩ := rig.released n released
      obtain rfl : f = g := Option.some.inj (((rig.bound f n).mp hn).symm.trans bound)
      exact flies
    · rw [Bool.eq_false_iff]
      intro released
      obtain ⟨g, bound, -⟩ := rig.released n released
      simp [unbound] at bound
  · rintro ⟨flights, bound, configured, unbound, addresses⟩
    refine ⟨fun f => (flights f).members, bound, fun f => (flights f).free, fun f => (flights f).freeQueue, configured,
      fun n bd => ?_, fun n released => ?_, fun f n hn => (flights f).arming n hn, fun f n hn flies na => ?_,
      fun f n hn => (flights f).parked n hn, fun f n hn => (flights f).tripped n hn, fun f => (flights f).claimed, addresses⟩
    · obtain ⟨f, bd⟩ := Option.ne_none_iff_exists'.mp bd
      exact (flights f).configured n ((bound f n).mpr bd)
    · cases bd : (s.axis n).flight with
      | none => simp [unbound n bd] at released
      | some f => exact ⟨f, rfl, (flights f).released n ((bound f n).mpr bd) released⟩
    · exact (flights f).following n hn (flies.resolve_left na)

/-- A flight whose record and whose members' states stand is as sound as it was. -/
theorem FlightSound.congr {f : FlightId} (h : FlightSound f s) (flight : t.flight f = s.flight f)
    (axis : ∀ n ∈ (s.flight f).members, (t.axis n).state = (s.axis n).state) : FlightSound f t := by
  obtain ⟨members, free, queue, configured, released, arming, following, parked, tripped, claimed⟩ := h
  refine ⟨?_, ?_, ?_, fun n hn => ?_, fun n hn => ?_, fun n hn => ?_, fun n hn => ?_, fun n hn => ?_, fun n hn => ?_, ?_⟩ <;>
    rw [flight] at * <;> try assumption
  · rw [axis n hn]; exact configured n hn
  · rw [released_congr (axis n hn)]; exact released n hn
  · rw [released_congr (axis n hn)]; exact arming n hn
  · rw [axis n hn]; exact following n hn
  · rw [axis n hn]; exact parked n hn
  · rw [axis n hn]; exact tripped n hn

/-- Work on one flight that leaves every binding and parameter, and the states of other flights' members. -/
theorem RigSound.of_own (rig : RigSound s) {f : FlightId} (others : OtherFlightsKept f s t) (own : FlightSound f t)
    (members : (t.flight f).members = (s.flight f).members)
    (axis : ∀ n, n ∉ (s.flight f).members → t.axis n = s.axis n)
    (inside : ∀ n ∈ (s.flight f).members, (t.axis n).flight = (s.axis n).flight ∧ (t.axis n).params = (s.axis n).params) :
    RigSound t := by
  obtain ⟨flights, bound, configured, unbound, addresses⟩ := (rigSound_iff s).mp rig
  have same (n : AxisId) : (t.axis n).flight = (s.axis n).flight ∧ (t.axis n).params = (s.axis n).params := by
    by_cases h : n ∈ (s.flight f).members
    · exact inside n h
    · rw [axis n h]; exact ⟨rfl, rfl⟩
  have apart {g : FlightId} {n : AxisId} (ne : g ≠ f) (hn : n ∈ (s.flight g).members) : n ∉ (s.flight f).members :=
    fun h => ne (Option.some.inj (((bound g n).mp hn).symm.trans ((bound f n).mp h)))
  refine (rigSound_iff t).mpr ⟨fun g => ?_, fun g n => ?_, fun n => ?_, fun n free => ?_, fun m n p q hp hq => ?_⟩
  · by_cases e : g = f
    · subst e; exact own
    · exact (flights g).congr (others g e) fun n hn => by rw [axis n (apart e hn)]
  · rw [(same n).1, ← bound g n]
    by_cases e : g = f
    · subst e; rw [members]
    · rw [others g e]
  · rw [(same n).2]
    by_cases h : n ∈ (s.flight f).members
    · refine iff_of_false (own.configured n (members ▸ h)) fun none => ?_
      exact (flights f).configured n h ((configured n).mpr none)
    · rw [axis n h]; exact configured n
  · rw [(same n).1] at free
    rw [axis n fun h => by simp [(bound f n).mp h] at free]
    exact unbound n free
  · exact addresses m n p q ((same m).2 ▸ hp) ((same n).2 ▸ hq)

theorem confirmArming_rig (n : AxisId) (rig : RigSound s) : RigSound (confirmArming n s) := by
  rcases confirmArming_cases n s with e | ⟨f, -, arming, done, e⟩ <;> rw [e]
  · exact rig
  have work : OtherFlightsKept f s (putFlightState f .ready (s.updFlight f fun r => { r with armTimer := none })) :=
    (updFlight_others _ _ _).trans (putFlightState_others _ _ _)
  have sound := ((rigSound_iff s).mp rig).1 f
  have members : (s.flight f).members ≠ [] := fun nil => by simp [sound.free.mpr nil] at arming
  refine rig.of_own work ?_ (by simp) (fun _ _ => rfl) fun _ _ => ⟨rfl, rfl⟩
  constructor <;> simp only [putFlightState_flight_same, State.updFlight_flight_same, putFlightState_axis,
    State.updFlight_axis]
  · exact sound.members
  · exact iff_of_false (by decide) members
  · intro h; cases h
  · exact sound.configured
  · exact fun _ _ _ => .inr (.inl rfl)
  · exact fun _ _ h => by cases h
  · intro m hm _
    have := (released_iff _).mp (sound.arming m hm arming)
    exact this.resolve_left (done m hm)
  · exact fun _ _ h => by cases h
  · exact fun _ _ h => by cases h
  · exact fun _ => sound.claimed (.inl arming)

theorem armFlight_rig {f : FlightId} {st : Station} (fits : ArmFits st f s) (rig : RigSound s) :
    RigSound (armFlight f s) := by
  have sound := ((rigSound_iff s).mp rig).1 f
  have members : (s.flight f).members ≠ [] := fun nil => by
    have := sound.free.mpr nil
    simp [fits.parked] at this
  refine rig.of_own (armFlight_work f s).others ?_ (by rw [armFlight_flight_same]) (fun n hn => ?_) fun n hn => ?_
  · constructor <;> simp only [armFlight_flight_same, armFlight_axis]
    · exact sound.members
    · exact iff_of_false (by decide) members
    · intro h; cases h
    · intro n hn; simp [hn]
    · exact fun _ _ _ => .inl rfl
    · intro n hn _; simp [hn, Axis.released]
    · intro n hn up; simp [FlightState.airborne] at up
    · intro n hn h; cases h
    · intro n hn h; cases h
    · intro _; simp [fits.claim]
  · rw [armFlight_axis, if_neg hn]
  · rw [armFlight_axis, if_pos hn]; exact ⟨rfl, rfl⟩

/-- An axis that a BIND may take is BRAKED. -/
theorem BindFits.braked {f : FlightId} {ns : List AxisId} (fits : BindFits f ns s) (rig : RigSound s) {n : AxisId}
    (hn : n ∈ ns) : (s.axis n).state = .braked := by
  rcases fits.unbound n hn with unbound | bound
  · have quiet := ((rigSound_iff s).mp rig).2.2.2.1 n unbound
    have configured := fits.configured n hn
    have sound := fits.sound n hn
    cases e : (s.axis n).state <;> simp_all [Axis.released]
  · have member := (rig.bound f n).mpr bound
    refine rig.parked f n member (fits.state.resolve_left fun free => ?_)
    simp [(rig.free f).mp free] at member

/-- A BIND and an UNBIND of a sound rig move memberships alone: no axis's state or parameters. -/
structure Rebound (f : FlightId) (ns : List AxisId) (s t : State) : Prop where
  others : OtherFlightsKept f s t
  members : (t.flight f).members = ns
  bound : ∀ n ∈ ns, (t.axis n).flight = some f
  dropped : ∀ n ∈ (s.flight f).members, n ∉ ns → (t.axis n).flight = none
  kept : ∀ n, n ∉ ns → n ∉ (s.flight f).members → (t.axis n).flight = (s.axis n).flight
  state : ∀ n, (t.axis n).state = (s.axis n).state
  params : ∀ n, (t.axis n).params = (s.axis n).params

theorem RigSound.rebound (rig : RigSound s) {f : FlightId} {ns : List AxisId} (h : Rebound f ns s t)
    (own : FlightSound f t) (state : (s.flight f).state = .free ∨ (s.flight f).state = .parked)
    (unbound : ∀ n ∈ ns, (s.axis n).flight = none ∨ (s.axis n).flight = some f) : RigSound t := by
  obtain ⟨flights, bound, configured, loose, addresses⟩ := (rigSound_iff s).mp rig
  refine (rigSound_iff t).mpr ⟨fun g => ?_, fun g n => ?_, fun n => by rw [h.state, h.params]; exact configured n,
    fun n free => ?_, fun m n p q hp hq => addresses m n p q (h.params m ▸ hp) (h.params n ▸ hq)⟩
  · by_cases e : g = f
    · subst e; exact own
    · exact (flights g).congr (h.others g e) fun n _ => h.state n
  · have members : n ∈ (t.flight g).members ↔ if g = f then n ∈ ns else (s.axis n).flight = some g := by
      split
      · rename_i e; subst e; rw [h.members]
      · rename_i e; rw [h.others g e]; exact bound g n
    rw [members]
    by_cases new : n ∈ ns
    · rw [h.bound n new]
      by_cases e : g = f
      · subst e; simp [new]
      · rw [if_neg e]
        refine iff_of_false (fun old => ?_) fun same => e (Option.some.inj same).symm
        rcases unbound n new with u | u <;> rw [u] at old
        · cases old
        · exact e (Option.some.inj old).symm
    · by_cases old : n ∈ (s.flight f).members
      · rw [h.dropped n old new]
        have := (bound f n).mp old
        split
        · simp [new]
        · rename_i e
          simp [this, Ne.symm e]
      · rw [h.kept n new old]
        split
        · rename_i e; subst e
          exact iff_of_false new fun b => old ((bound g n).mpr b)
        · rfl
  · rw [released_congr (h.state n)]
    by_cases old : n ∈ (s.flight f).members
    · have braked : (s.axis n).state = .braked := (flights f).parked n old
        (state.resolve_left fun free => by simp [(flights f).free.mp free] at old)
      simp [Axis.released, braked]
    · have new : n ∉ ns := fun new => by simp [h.bound n new] at free
      exact loose n (h.kept n new old ▸ free)

theorem bindMembers_rig {f : FlightId} {ns : List AxisId} (fits : BindFits f ns s) (rig : RigSound s) :
    RigSound (bindMembers f ns s) := by
  have braked (n : AxisId) (hn : n ∈ ns) := fits.braked rig hn
  have axis (n : AxisId) : (bindMembers f ns s).axis n =
      if n ∈ ns then { s.axis n with flight := some f }
      else if n ∈ (s.flight f).members then { s.axis n with flight := none } else s.axis n := by
    rw [bindMembers_axis]
    by_cases hn : n ∈ ns
    · simp [hn, brakedDown_of_unreleased (a := s.axis n) (by simp [Axis.released, braked n hn])]
    · simp [hn]
  have flight := bindMembers_flight_same f ns s fits.state
  have state (n : AxisId) : ((bindMembers f ns s).axis n).state = (s.axis n).state := by
    rw [axis]; repeat' split
    all_goals rfl
  refine rig.rebound (ns := ns) ⟨(bindMembers_work f ns s).others, by rw [flight], fun n hn => by rw [axis, if_pos hn],
    fun n old new => by rw [axis, if_neg new, if_pos old], fun n new old => by rw [axis, if_neg new, if_neg old], state,
    fun n => ?_⟩ ?_ fits.state fits.unbound
  · rw [axis]; repeat' split
    all_goals rfl
  · constructor <;> simp only [flight, state]
    · exact ⟨fits.distinct, fits.few⟩
    · exact iff_of_false (by decide) fits.some
    · intro h; cases h
    · exact fits.configured
    · intro n hn released
      rw [released_congr (state n)] at released
      simp [Axis.released, braked n hn] at released
    · intro n hn h; cases h
    · intro n hn up; simp [FlightState.airborne] at up
    · exact fun n hn _ => braked n hn
    · intro n hn h; cases h
    · intro flies; simp [FlightState.flies] at flies

theorem unbindMembers_rig {f : FlightId} (parked : (s.flight f).state = .parked) (rig : RigSound s) :
    RigSound (unbindMembers f s) := by
  have axis := unbindMembers_axis f s
  have flight := unbindMembers_flight_same f s
  refine rig.rebound (ns := []) ⟨(unbindMembers_work f s).others, by rw [flight], by simp,
    fun n old _ => by rw [axis, if_pos old], fun n _ old => by rw [axis, if_neg old], fun n => ?_, fun n => ?_⟩ ?_
    (.inr parked) (by simp)
  · rw [axis]; split <;> rfl
  · rw [axis]; split <;> rfl
  · constructor <;> simp [flight, FlightState.flies]

theorem configured_bound (a : Axis) (p : AxisParams) : (a.configured p).flight = a.flight := by
  unfold Axis.configured
  dsimp only
  repeat' split
  all_goals rfl

theorem configured_params (a : Axis) (p : AxisParams) : (a.configured p).params = some p := by
  unfold Axis.configured
  dsimp only
  repeat' split
  all_goals rfl

theorem configured_state (a : Axis) (p : AxisParams) :
    (a.configured p).state = if a.state = .unconfigured ∨ a.state = .faulted then .braked else a.state := by
  unfold Axis.configured
  dsimp only
  cases a.state <;> simp <;> split <;> rfl

theorem addressTaken_iff (n : AxisId) (address : BitVec 7) (s : State) :
    addressTaken n address s = true ↔
      ∃ m, m ≠ n ∧ (s.axis m).state ≠ .unconfigured ∧ (s.axis m).params.map AxisParams.address = some address := by
  simp [addressTaken, mem_allAxes, and_assoc]

theorem configureAxis_flights (n : AxisId) (p : AxisParams) (s : State) : (configureAxis n p s).flights = s.flights := by
  unfold configureAxis; dsimp only; split <;> rfl

theorem configureAxis_rig {n : AxisId} {p : AxisParams} (fits : ConfigureFits n p s) (rig : RigSound s) :
    RigSound (configureAxis n p s) := by
  have axis (m : AxisId) := configureAxis_axis n m p s
  have flight (f : FlightId) : (configureAxis n p s).flight f = s.flight f := by
    simp [State.flight, configureAxis_flights]
  have fresh (m : AxisId) (ne : m ≠ n) (q : AxisParams) (hq : (s.axis m).params = some q) : q.address ≠ p.address := by
    intro same
    have taken : addressTaken n p.address s = true :=
      (addressTaken_iff _ _ _).mpr ⟨m, ne, fun un => by simp [(rig.configured m).mp un] at hq, by simp [hq, same]⟩
    simp [fits.fresh] at taken
  refine rig.of_view ⟨fun f => by rw [flight], fun f => .inl (by rw [flight]), fun f => by rw [flight]; exact rig.claimed f,
    fun f => by rw [flight]; exact rig.freeQueue f, fun m => ?_, fun m => ?_⟩ (fun m => ?_) fun a b u v hu hv same => ?_
  · rw [axis]; split
    · exact configured_bound _ _
    · rfl
  · rw [axis]; split
    · rename_i e; subst e
      rw [configured_state]
      cases bd : (s.axis m).flight with
      | none =>
        have quiet := ((rigSound_iff s).mp rig).2.2.2.1 m bd
        refine .inr (.inr ⟨rfl, ?_⟩)
        rw [← Bool.not_eq_true, released_iff] at quiet ⊢
        rw [configured_state]
        split
        · simp
        · exact quiet
      | some f =>
        have braked := rig.parked f m ((rig.bound f m).mpr bd) (fits.parked f bd)
        simp [braked]
    · exact .inl rfl
  · rw [axis]; split
    · rename_i e; subst e
      rw [configured_params, configured_state]
      refine iff_of_false ?_ (by simp)
      split
      · decide
      · rename_i h; exact fun un => h (.inl un)
    · exact rig.configured m
  · rw [axis] at hu hv
    by_cases ea : a = n <;> by_cases eb : b = n
    · rw [ea, eb]
    · rw [if_pos ea, configured_params] at hu
      rw [if_neg eb] at hv
      exact absurd (Option.some.inj hu ▸ same.symm) (fresh b eb v hv)
    · rw [if_neg ea] at hu
      rw [if_pos eb, configured_params] at hv
      exact absurd (Option.some.inj hv ▸ same) (fresh a ea u hu)
    · rw [if_neg ea] at hu
      rw [if_neg eb] at hv
      exact rig.addresses a b u v hu hv same

/-- A part whose flights and axes stand at their reset values is sound (01, R1, R2). -/
theorem rigSound_of_reset (flight : ∀ f, t.flight f = Flight.reset) (axis : ∀ n, t.axis n = Axis.reset) : RigSound t := by
  constructor <;> simp [flight, axis, Flight.reset, Axis.reset, Axis.released, FlightState.flies]

theorem Act.rig (h : Act s t) (rig : RigSound s) : RigSound t := by
  cases h with
  | quiet h => exact rig.of_quiet h
  | fly f h => exact h.rig rig
  | trip f cause => exact tripFlight_rig f cause rig
  | abort f cause => exact abortArming_rig f cause rig
  | park f _ state =>
    refine rig.grounded_braked (f := f) (parkFlight_work f s).others ?_ ?_ (by rw [parkFlight_flight_same])
      (by rw [parkFlight_flight_same]) (parkFlight_axis f s) <;> rcases state with e | e <;> simp [e]
  | resetFlight f _ tripped => exact resetTripped_rig tripped rig
  | fault n cause => exact faultAxis_rig n cause rig
  | miss n kind =>
    have counted := updAxis_rig (n := n) (g := fun a => a.missed kind) rig fun _ => ⟨rfl, rfl, rfl⟩
    rcases countMiss_cases n kind s with ⟨-, e⟩ | ⟨-, e⟩ <;> rw [e]
    · exact faultAxis_rig n _ counted
    · exact counted
  | axis n h => exact h.rig rig
  | track n pos => exact updAxis_rig rig fun _ => ⟨rfl, rfl, rfl⟩
  | confirm n => exact confirmArming_rig n rig
  | claim f st =>
    exact rig.of_record (f := f) (updFlight_others _ _ _) (fun _ => rfl) (by rw [setClaim_flight_same])
      (by rw [setClaim_flight_same]) (fun _ => by rw [setClaim_flight_same]; simp) (by rw [setClaim_flight_same])
  | release f _ allowed =>
    refine rig.of_record (f := f) (updFlight_others _ _ _) (fun _ => rfl) (by rw [setClaim_flight_same])
      (by rw [setClaim_flight_same]) (fun flies => ?_) (by rw [setClaim_flight_same])
    rcases flies with e | e | e | e | e | e <;> simp [e, FlightState.allowsRelease] at allowed
  | bind f ns _ fits => exact bindMembers_rig fits rig
  | unbind f _ parked => exact unbindMembers_rig parked rig
  | configure n p _ fits => exact configureAxis_rig fits rig
  | slot k r => exact rig.of_flights rfl (fun _ => rfl) (fun _ => rfl) fun _ => .inl rfl
  | reset => exact rigSound_of_reset (assertReset_flight s) (assertReset_axis s)

theorem armTaken_rig (h : ArmTaken s t) (rig : RigSound s) : RigSound t := by
  obtain ⟨st, f, u, v, kind, ans, quiet, fits, rfl⟩ := h
  exact (armFlight_rig fits (rig.of_quiet quiet)).of_quiet (startReply_quiet _ _ _ _)

/-- The queue of waiting commands is no part of the rig. -/
theorem RigSound.of_pending (rig : RigSound s) (rest : List Instr) : RigSound { s with pending := rest } :=
  rig.of_flights rfl (fun _ => rfl) (fun _ => rfl) fun _ => .inl rfl

end

/-- Settles O6: every act keeps the rig sound, and so does the release of the brakes by an ARM. -/
theorem stepKeepsRig : Obligations.StepKeepsRig := by
  intro s t rig h
  exact step_keeps (P := RigSound) (fun _ rest hs => hs.of_pending rest) (fun _ _ act => act.rig)
    (fun _ _ arm => armTaken_rig arm) h rig

/-! ## Streaks (07, R133 to R135; 01, R3) -/

/-- What StreaksSound says of one axis. -/
structure AxisStreaks (a : Axis) : Prop where
  missed : a.missedStreak ≤ 3
  written : a.writeStreak ≤ 3
  three : a.missedStreak = 3 → a.state = .faulted ∧ a.faultCause = some .driveSilent
  cause : a.faultCause ≠ none ↔ a.state = .faulted

theorem streaksSound_iff (s : State) : StreaksSound s ↔ ∀ n, AxisStreaks (s.axis n) :=
  ⟨fun h n => ⟨h.missed n, h.written n, h.three n, h.cause n⟩,
    fun h => ⟨fun n => (h n).missed, fun n => (h n).written, fun n => (h n).three, fun n => (h n).cause⟩⟩

theorem brakedDown_streaks {a : Axis} (h : AxisStreaks a) : AxisStreaks a.brakedDown := by
  obtain ⟨missed, written, three, cause⟩ := h
  unfold Axis.brakedDown
  split
  · rename_i released
    have live : a.state ≠ .faulted := by
      rcases (released_iff a).mp released with e | e <;> simp [e]
    refine ⟨missed, written, fun h => absurd (three h).1 live, ?_⟩
    exact iff_of_false (fun h => live (cause.mp h)) (by simp)
  · exact ⟨missed, written, three, cause⟩

theorem recovered_streaks {a : Axis} (h : AxisStreaks a) (streak : a.missedStreak ≠ 3) : AxisStreaks a.recovered := by
  unfold Axis.recovered
  split
  · exact ⟨h.missed, h.written, fun e => absurd e streak, by simp⟩
  · exact h

/-- The record after an accepted CONFIGURE-AXIS, field by field (01, R6; 07, R133, R134). -/
theorem configured_eq (a : Axis) (p : AxisParams) :
    a.configured p =
      { a with params := some p
               state := if a.state = .unconfigured ∨ a.state = .faulted then .braked else a.state
               faultCause := if a.state = .faulted then none else a.faultCause
               setPoint := if a.state = .unconfigured then 0 else a.setPoint
               measured := if a.state = .unconfigured ∨ changesAddress a p then none else a.measured
               driveStatus := if a.state = .unconfigured ∨ changesAddress a p then none else a.driveStatus
               lastWrite := if a.state = .unconfigured ∨ changesAddress a p then none else a.lastWrite
               missedStreak := if a.state = .unconfigured ∨ changesAddress a p then 0 else a.missedStreak
               writeStreak := if a.state = .unconfigured ∨ changesAddress a p then 0 else a.writeStreak } := by
  unfold Axis.configured
  by_cases moved : changesAddress a p = true <;> cases state : a.state <;> simp [moved]

theorem configured_streaks {a : Axis} (h : AxisStreaks a) (p : AxisParams) (streak : a.missedStreak ≠ 3) :
    AxisStreaks (a.configured p) := by
  obtain ⟨missed, written, -, cause⟩ := h
  have short : a.missedStreak < 3 := by omega
  rw [configured_eq]
  have kept : (if a.state = .unconfigured ∨ changesAddress a p then 0 else a.missedStreak) < 3 := by split <;> omega
  refine ⟨kept.le, ?_, fun full => absurd full kept.ne, ?_⟩
  · dsimp only; split <;> omega
  · dsimp only
    cases state : a.state <;> simp_all

/-- A counted miss keeps the streaks within 3, and brings the missed streak to 3 only where it faults the axis or finds it
FAULTED with DRIVE_SILENT (07, R133, R134). -/
theorem missed_streaks {a : Axis} (h : AxisStreaks a) (kind : ExchangeKind) :
    (a.missed kind).missedStreak ≤ 3 ∧ (a.missed kind).writeStreak ≤ 3 ∧
      ((a.missed kind).missedStreak = 3 → a.state = .unconfigured ∨ a.state = .faulted →
        a.state = .faulted ∧ a.faultCause = some .driveSilent) := by
  obtain ⟨missed, written, three, -⟩ := h
  refine ⟨?_, ?_, fun full idle => ?_⟩
  · simp only [Axis.missed, missedStreakAfter]
    split
    · exact missed
    · omega
    · omega
    · omega
    · split <;> omega
  · cases kind <;> simp only [Axis.missed, writeStreakAfter] <;> omega
  · simp only [Axis.missed, missedStreakAfter] at full
    rcases idle with e | e <;> rw [e] at full <;> dsimp only at full
    · exact three full
    · split at full
      · exact ⟨e, ‹_›⟩
      · exact three (by omega)

theorem AxisChange.streaks {a a' : Axis} (h : AxisChange a a') (ha : AxisStreaks a) : AxisStreaks a' := by
  cases h with
  | rope | bind => exact ⟨ha.missed, ha.written, ha.three, ha.cause⟩
  | move h =>
    cases h with
    | written => exact ⟨ha.missed, by simp, ha.three, ha.cause⟩
    | read => exact ⟨by simp, ha.written, by simp, ha.cause⟩
    | confirmed state =>
      have live : a.state ≠ .faulted := by simp [state]
      refine ⟨ha.missed, ha.written, fun h => absurd (ha.three h).1 live, ?_⟩
      exact iff_of_false (fun h => live (ha.cause.mp h)) (by simp)
  | brake => exact brakedDown_streaks ha
  | recover streak => exact brakedDown_streaks (recovered_streaks ha streak)
  | fault cause live =>
    refine ⟨ha.missed, ha.written, fun h => ?_, by simp [Axis.faulted]⟩
    rcases live with e | e | e <;> have := (ha.three h).1 <;> simp [e] at this
  | miss kind calm =>
    obtain ⟨missed, written, three⟩ := missed_streaks ha kind
    refine ⟨missed, written, fun h => three h ?_, ha.cause⟩
    rcases calm with due | idle
    · exact absurd (.inl h) due
    · exact idle
  | missFault kind live =>
    obtain ⟨missed, written, -⟩ := missed_streaks ha kind
    exact ⟨missed, written, fun _ => ⟨rfl, rfl⟩, by simp [Axis.faulted]⟩
  | bindBraked f =>
    have braked := brakedDown_streaks ha
    exact ⟨braked.missed, braked.written, braked.three, braked.cause⟩
  | configure p range streak => exact configured_streaks ha p streak
  | restart => constructor <;> simp [Axis.reset]

theorem armTaken_streaks (h : ArmTaken s t) (rig : RigSound s) {n : AxisId} (ha : AxisStreaks (s.axis n)) :
    AxisStreaks (t.axis n) := by
  rcases armTaken_axis h rig n with e | ⟨state, x, e⟩ <;> rw [e]
  · exact ha
  · have live : (s.axis n).state ≠ .faulted := by simp [state]
    refine ⟨ha.missed, ha.written, fun h => absurd (ha.three h).1 live, ?_⟩
    exact iff_of_false (fun h => live (ha.cause.mp h)) (by simp)

/-- Settles O10: every change that an act makes of an axis's record keeps its streaks; that a released member was BRAKED, and so
not FAULTED, is the soundness of the rig. -/
theorem stepKeepsStreaks : Obligations.StepKeepsStreaks := by
  intro s t rig streaks h
  refine (step_keeps (P := fun u => RigSound u ∧ ∀ n, AxisStreaks (u.axis n)) (fun _ rest hs => ⟨hs.1.of_pending rest, hs.2⟩)
    (fun _ _ act hs => ⟨act.rig hs.1, fun n => (act.axisChange n).streaks (hs.2 n)⟩)
    (fun _ _ arm hs => ⟨armTaken_rig arm hs.1, fun n => armTaken_streaks arm hs.1 (hs.2 n)⟩) h
    ⟨rig, (streaksSound_iff s).mp streaks⟩).2 |> (streaksSound_iff t).mpr

end Sys2Proof.Machine
end

section
namespace Sys2Proof.Machine

/-! ## The brake lines (01, R12, R13; 09, R169) -/

/-! ### Output lines behind trips, aborts and faults -/

theorem tripFlight_driven {f : FlightId} {cause : TripCause} {s : State} (trips : (s.flight f).state.trips = true) :
    OutputsDriven s (tripFlight f cause s) := by
  unfold tripFlight
  split
  case h_1 | h_2 => simp_all [FlightState.trips]
  all_goals exact putFlightState_drivenFrom rfl

theorem tripFlight_statesKept {f : FlightId} {cause : TripCause} {s : State} (stays : (s.flight f).state.trips = false) :
    StatesKept s (tripFlight f cause s) := by
  unfold tripFlight
  split
  case h_1 => exact .refl s
  case h_2 => exact updFlight_statesKept s fun _ => rfl
  all_goals simp_all [FlightState.trips]

theorem tripFlight_tracked (f : FlightId) (cause : TripCause) (s : State) : OutputsTracked s (tripFlight f cause s) := by
  cases h : (s.flight f).state.trips
  · exact .inr (tripFlight_statesKept h)
  · exact .inl (tripFlight_driven h)

theorem abortArming_tracked (f : FlightId) (cause : HoldCause) (s : State) : OutputsTracked s (abortArming f cause s) := by
  unfold abortArming
  split
  case h_1 => exact .inl (putFlightState_drivenFrom rfl)
  all_goals exact .inr (.refl s)

/-! ### The lines follow the axis states -/

/-- Every brake line is asserted where its axis is released, and nowhere else (09, R169). -/
def BrakesFollow (s : State) : Prop := ∀ n, s.brake n = (s.axis n).released

variable {s t : State}

theorem OutputsFollow.brakes (h : OutputsFollow s) : BrakesFollow s := fun n =>
  Bool.eq_iff_iff.mpr ((h.brake n).trans (released_iff _).symm)

theorem OutputsDriven.brakes (h : OutputsDriven s t) : BrakesFollow t := h.1

theorem BrakesFollow.of_kept (h : BrakesFollow s) (brakes : t.brakes = s.brakes)
    (axes : ∀ n, (t.axis n).state = (s.axis n).state) : BrakesFollow t := fun n => by
  rw [released_congr (axes n), ← h n]
  simp [State.brake, brakes]

theorem OutputsTracked.brakes (h : OutputsTracked s t) (hs : BrakesFollow s) : BrakesFollow t :=
  h.elim OutputsDriven.brakes fun kept => hs.of_kept kept.outputs.1 kept.axes

theorem faultAxis_brakes (n : AxisId) (cause : FaultCause) (hs : BrakesFollow s) : BrakesFollow (faultAxis n cause s) := by
  rcases faultAxis_cases n cause s with ⟨-, e⟩ | ⟨-, ⟨-, e⟩ | ⟨f, -, e⟩⟩ <;> rw [e]
  · exact hs
  · exact (putAxis_driven _ _ _).brakes
  · exact (tripFlight_tracked _ _ _).brakes (putAxis_driven _ _ _).brakes

theorem Act.brakes (h : Act s t) (hs : BrakesFollow s) : BrakesFollow t := by
  have same {u : State} (axes : u.axes = s.axes) (brakes : u.brakes = s.brakes) : BrakesFollow u :=
    hs.of_kept brakes fun n => by simp [State.axis, axes]
  have kept {n : AxisId} {g : Axis → Axis} (state : ∀ a, (g a).state = a.state) : BrakesFollow (s.updAxis n g) :=
    hs.of_kept rfl fun m => by
      rw [State.updAxis_axis]
      split
      · exact state _
      · rfl
  cases h with
  | quiet h => exact same h.axes h.brakes
  | fly f h => exact h.outputs.brakes hs
  | trip f cause => exact (tripFlight_tracked f cause s).brakes hs
  | abort f cause => exact (abortArming_tracked f cause s).brakes hs
  | park f | resetFlight f | unbind f => exact (putFlightState_driven _ _ _).brakes
  | fault n cause => exact faultAxis_brakes n cause hs
  | miss n kind =>
    have counted := kept (n := n) (g := fun a => a.missed kind) fun _ => rfl
    rcases countMiss_cases n kind s with ⟨-, e⟩ | ⟨-, e⟩ <;> rw [e]
    · exact faultAxis_brakes n _ counted
    · exact counted
  | axis n h => exact h.outputs.brakes hs
  | track n pos => exact kept fun _ => rfl
  | confirm n =>
    rcases confirmArming_cases n s with e | ⟨g, -, -, -, e⟩ <;> rw [e]
    · exact hs
    · exact (putFlightState_driven _ _ _).brakes
  | claim f st => exact same rfl rfl
  | release f => exact same rfl rfl
  | bind f ns _ fits =>
    unfold bindMembers
    dsimp only
    split
    · exact (putFlightState_driven _ _ _).brakes
    · refine hs.of_kept rfl fun n => ?_
      rw [State.updFlight_axis, State.mapAxes_axis]
      repeat' split
      all_goals rfl
  | configure n p =>
    unfold configureAxis
    dsimp only
    split <;> exact (putAxis_driven n (fun a => a.configured p) s).brakes
  | slot k r => exact same rfl rfl
  | reset =>
    intro n
    have off : (assertReset s).brake n = false := Vector.getElem_replicate _
    rw [off, assertReset_axis]; rfl

/-! ### No act but an ARM releases a member -/

/-- A change of an axis's record by an act releases no brake. -/
theorem AxisChange.released {a a' : Axis} (h : AxisChange a a') (released : a'.released = true) : a.released = true := by
  cases h with
  | move h =>
    cases h with
    | confirmed state => simp [Axis.released, state]
    | written | read => exact released
  | brake => simp [brakedDown_released] at released
  | recover => simp [brakedDown_released] at released
  | fault | missFault | restart => cases released
  | bindBraked f =>
    have down := brakedDown_released a
    exact absurd (released.symm.trans down) (by decide)
  | configure p =>
    rw [released_iff, configured_state] at released
    split at released
    · simp at released
    · exact (released_iff a).mpr released
  | rope | miss | bind => exact released

/-- A run of acts asserts no brake line. -/
theorem Acts.brake {n : AxisId} (h : Acts s t) (hs : BrakesFollow s) (on : t.brake n = true) : s.brake n = true := by
  have kept := h.keeps (P := fun u => BrakesFollow u ∧ (u.brake n = true → s.brake n = true))
    (fun u v act hu => ⟨act.brakes hu.1, fun on => hu.2 (by
      rw [act.brakes hu.1] at on
      rw [hu.1 n]
      exact (act.axisChange n).released on)⟩) ⟨hs, id⟩
  exact kept.2 on

/-- A station that may start is ACTIVE with its enable true (06, R111). -/
theorem mayStart_iff (s : State) (st : Station) :
    s.mayStart st = true ↔ s.enables.get st = true ∧ s.silents.get st = false := by
  simp [State.mayStart]

/-- A brake line that an ARM asserts is a member's of its flight. -/
theorem armTaken_brake (h : ArmTaken s t) (hs : BrakesFollow s) (n : AxisId) (off : s.brake n = false) (on : t.brake n = true) :
    ∃ f st, n ∈ (t.flight f).members ∧ (s.flight f).state = .parked ∧ (t.flight f).state = .arming ∧
      (t.flight f).claim = some st ∧ t.enables.get st = true ∧ t.silents.get st = false ∧ t.persists f = false := by
  obtain ⟨st, f, u, v, kind, ans, quiet, fits, rfl⟩ := h
  have flight : u.flight f = s.flight f := by simp [State.flight, quiet.flights]
  have axis : u.axis n = s.axis n := by simp [State.axis, quiet.axes]
  have record : (startReply v kind ans (armFlight f u)).flight f = { u.flight f with state := .arming, armTimer := some 100 } :=
    armFlight_flight_same f u
  have driven : (startReply v kind ans (armFlight f u)).brake n = ((armFlight f u).axis n).released :=
    (putFlightState_driven _ _ _).1 n
  have member : n ∈ (u.flight f).members := by
    rw [driven, armFlight_axis] at on
    split at on
    · assumption
    · rw [axis, ← hs n, off] at on
      cases on
  obtain ⟨enable, silent⟩ := (mayStart_iff u st).mp fits.may
  exact ⟨f, st, by rw [record]; exact member, flight ▸ fits.parked, by rw [record], by rw [record]; exact fits.claim,
    enable, silent, fits.clear⟩

/-- Settles O12: acts assert no brake line, so an ARM did. -/
theorem brakesReleaseByArmAlone : Obligations.BrakesReleaseByArmAlone := by
  intro s t n outputs rig h off on
  obtain ⟨rest, acts | arm⟩ := step_ran h
  · have was : s.brake n = true := acts.brake (fun m => outputs.brakes m) on
    exact absurd (was.symm.trans off) (by decide)
  · exact armTaken_brake arm (fun m => outputs.brakes m) n off on

end Sys2Proof.Machine
end

section
namespace Sys2Proof.Machine

/-! ## The reset (R1, R42, R124, R158, R172) -/

/-! ### While RESETN is asserted -/

theorem updLine_raw_same {n : LineId} {level : Level} {s : State} (h : (s.line n).raw = level) :
    (s.updLine n fun l => { l with raw := level }) = s := by
  have lines : (s.updLine n fun l => { l with raw := level }).lines = s.lines := vector_ext_fin fun k => by
    show (s.updLine n fun l => { l with raw := level }).line k = s.line k
    rw [State.updLine_line]
    split
    · rename_i e; subst e; rw [← h]
    · rfl
  show { s with lines := (s.updLine n fun l => { l with raw := level }).lines } = s
  rw [lines]

/-- While RESETN is asserted, and the step timer stopped with it, no command but the reset's own has an effect, and a change of a
line's raw level alone reaches its pin. -/
theorem exec_in_reset {c : Instr} {s : State} (down : s.resetAsserted = true) (stopped : s.timerRunning = false)
    (begin_ : c ≠ .resetnAssert) (end_ : c ≠ .resetEnd) (pin : ∀ n level, c ≠ .rawLevelChange n level) :
    exec c s = .next s := by
  cases e : encodeRequest c with
  | some frame =>
    obtain ⟨st, kind, body⟩ := frame
    rw [exec_request s e, onRequest_reset down]
  | none =>
    cases c <;> first | (cases e; done) | skip
    case readLines st filters => exact onRequest_reset down
    case resetnAssert => exact absurd rfl begin_
    case resetEnd => exact absurd rfl end_
    case unknownKind st kind =>
      show execUnknownKind st kind s = _
      unfold execUnknownKind
      split
      · rfl
      · exact onRequest_reset down
    case byteReceived | gap | replySent | lineSettle =>
      simp [exec, execByteReceived, execGap, execReplySent, execLineSettle, down]
    case stepExpiry | silence => simp [exec, execStepExpiry, execSilence, stopped]
    case dwellExpiry | brakeTimeout | sndrPhaseExpiry =>
      simp only [exec, execDwellExpiry, execBrakeTimeout, execSndrPhaseExpiry, stopped]
      repeat' split
      all_goals simp_all
    case exchangeStart | heldLine | writeComplete | readComplete | answerHoldTimeout | missedExchange =>
      simp only [exec, execExchangeStart, execHeldLine, execWriteComplete, execReadComplete, execAnswerHoldTimeout,
        execMissedExchange, down]
      repeat' split
      all_goals simp_all
    case filterAccept | conversionComplete =>
      simp only [exec, execFilterAccept, execConversionComplete, down]
      repeat' split
      all_goals simp_all
    case rawLevelChange n level => exact absurd rfl (pin n level)

theorem exec_rawLevelChange_in_reset {n : LineId} {level : Level} {s : State} (down : s.resetAsserted = true) :
    exec (.rawLevelChange n level) s = .next (s.updLine n fun l => { l with raw := level }) := by
  simp only [exec, execRawLevelChange, rawChange, down, if_true]
  split
  · rename_i same; rw [updLine_raw_same same]
  · rfl

/-! ### Its beginning and its end -/

theorem assertReset_line (s : State) (n : LineId) : (assertReset s).line n = SenseLine.reset (s.line n).raw := by
  simp [assertReset, State.line]

/-- A reset ends with no line to settle where every filter is on. -/
theorem releaseReset_filtersOn {s : State} (on : ∀ n, (s.line n).filterOn = true) :
    releaseReset s = { s with timerRunning := true, resetAsserted := false } := by
  simp [releaseReset, on, takeInAnyOrder_nil]

/-- Settles O3. -/
theorem resetRules : Obligations.ResetRules := by
  refine ⟨fun c s down stopped begin_ end_ => ?_, fun s => ?_, fun s down on => ?_⟩
  · split
    · exact exec_rawLevelChange_in_reset down
    · rename_i other; exact exec_in_reset down stopped begin_ end_ other
  · exact ⟨assertReset s, rfl, rfl, assertReset_line s⟩
  · show execResetEnd s = _
    rw [execResetEnd, if_pos down, releaseReset_filtersOn on]

/-! ### The state right after reset -/

theorem reset_flight (f : FlightId) : State.reset.flight f = Flight.reset := Vector.getElem_replicate _

theorem reset_axis (n : AxisId) : State.reset.axis n = Axis.reset := Vector.getElem_replicate _

theorem reset_link (i : LinkId) : State.reset.link i = none := Vector.getElem_replicate _

theorem reset_slot (k : SlotId) : State.reset.slot k = Slot.reset := Vector.getElem_replicate _

theorem reset_line (n : LineId) : State.reset.line n = SenseLine.reset .low := Vector.getElem_replicate _

theorem reset_port (st : Station) : State.reset.port st = Port.reset := by cases st <;> rfl

theorem reset_brake (n : AxisId) : State.reset.brake n = false := Vector.getElem_replicate _

theorem reset_enable (st : Station) : State.reset.enables.get st = false := by cases st <;> rfl

theorem reset_silent (st : Station) : State.reset.silents.get st = false := by cases st <;> rfl

theorem reset_sounder : State.reset.sounder = .off := rfl

theorem reset_faultLine : State.reset.faultLine = false := rfl

theorem reset_outputsFollow : OutputsFollow State.reset where
  brake n := by simp [reset_brake, reset_axis, Axis.reset]
  pulsed := by simp [reset_flight, Flight.reset, reset_sounder]
  phase := by simp [reset_sounder]
  steady := by simp [reset_flight, Flight.reset, reset_sounder]
  fault := by simp [reset_flight, reset_axis, Flight.reset, Axis.reset, reset_faultLine]

theorem reset_flightsShaped : FlightsShaped State.reset := fun f => by
  rw [reset_flight]
  constructor <;> simp [Flight.reset]

theorem reset_recordsInRange : RecordsInRange State.reset where
  queue f := by simp [reset_flight, Flight.reset]
  active f := by simp [reset_flight, Flight.reset]
  limits f := by simp [reset_flight, Flight.reset]
  timers f := by simp [reset_flight, Flight.reset]
  params n := by simp [reset_axis, Axis.reset]
  slots k := by simp [reset_slot, Slot.reset, Slot.InRange]

theorem reset_pathsSound : PathsSound State.reset := fun f => by simp [reset_flight, Flight.reset]

theorem reset_streaksSound : StreaksSound State.reset :=
  (streaksSound_iff _).mpr fun n => by rw [reset_axis]; constructor <;> simp [Axis.reset]

theorem reset_portsSound : PortsSound State.reset := fun st => by
  rw [reset_port, reset_silent]
  constructor <;> simp [Port.reset]

theorem reset_busSound : BusSound State.reset := by constructor <;> simp [State.reset]

theorem reset_scannerSound : ScannerSound State.reset := by constructor <;> simp [State.reset]

theorem reset_enablesFollow : EnablesFollow State.reset := fun u => by simp [reset_enable, reset_link, EnableHolds]

/-- Settles O4. -/
theorem resetValues : Obligations.ResetValues := by
  refine ⟨reset_flight, reset_axis, reset_link, reset_slot, fun n => ?_, fun st => ?_,
    fun st => ⟨reset_enable st, reset_silent st⟩, rfl, rfl, rfl, rfl, rfl, rfl, reset_brake, rfl, rfl, reset_outputsFollow,
    rigSound_of_reset reset_flight reset_axis, reset_flightsShaped, reset_recordsInRange, reset_pathsSound, reset_streaksSound,
    reset_portsSound, reset_busSound, reset_scannerSound, reset_enablesFollow⟩
  · rw [reset_line]; exact ⟨rfl, rfl, rfl⟩
  · rw [reset_port]; simp [Port.reset]

end Sys2Proof.Machine
end

section
namespace Sys2Proof.Machine

/-! ## Requests taken and refused -/

/-! ### What a request row makes of its owner's answer -/

section
variable {i : Instr} {st : Station} {kind : Byte} {body : List Byte} {s u : State} {code : ResultCode}

/-- A request row hears its station, hands the request to its owner and starts the reply. -/
theorem exec_served (spelled : encodeRequest i = some (st, kind, body)) (live : s.resetAsserted = false) :
    exec i s = .next (startReply st kind (serveRequest i (markHeard st s)).2 (serveRequest i (markHeard st s)).1) := by
  rw [exec_request s spelled, onRequest_live live]

theorem exec_refused (spelled : encodeRequest i = some (st, kind, body)) (live : s.resetAsserted = false)
    (served : serveRequest i (markHeard st s) = refuse (markHeard st s) code) :
    exec i s = .next (answer st kind code s) := by
  rw [exec_served spelled live, served]; rfl

theorem exec_accepted (spelled : encodeRequest i = some (st, kind, body)) (live : s.resetAsserted = false)
    (served : serveRequest i (markHeard st s) = accept u) : exec i s = .next (reply st kind .done u) := by
  rw [exec_served spelled live, served]; rfl

end

theorem markHeard_silence (st : Station) (s : State) : ((markHeard st s).port st).silence = 0 := by simp

/-- A refused request leaves its flight and everything else as it was, but that a GO may have rejected its head (02, R33). -/
theorem serveRequest_refused {i : Instr} {st : Station} {kind : Byte} {body : List Byte} {s : State}
    (spelled : encodeRequest i = some (st, kind, body)) (code : (serveRequest i s).2.code ≠ .done) :
    (serveRequest i s).2.data = [] ∧
      ((serveRequest i s).1 = s ∨ ∃ b, i = .go st b ∧
        ((serveRequest i s).2.code = .outOfLimits ∨ (serveRequest i s).2.code = .loadOutOfWindow)) := by
  by_cases arm : ∃ st f, i = .arm st f
  · obtain ⟨u, b, rfl⟩ := arm
    exact ((serveArm_answers u b s).refused code).imp_right .inl
  by_cases go : ∃ st f, i = .go st f
  · obtain ⟨u, b, rfl⟩ := go
    cases spelled
    exact (serveGo_refused code).imp_right fun same => same.imp_right fun codes => ⟨b, rfl, codes⟩
  push Not at arm go
  exact ((serveRequest_answers go arm).refused code).imp_right .inl

/-- Settles O18. -/
theorem refusalsChangeNothing : Obligations.RefusalsChangeNothing := by
  intro i st kind body s spelled live heard served
  exact ⟨exec_served spelled live, markHeard_silence st s, by simp [heard], serveRequest_refused spelled⟩

/-! ### Flight limits (01, R20, R21) -/

/-- Settles O26. -/
theorem flightLimitsRule : Obligations.FlightLimitsRule := by
  intro st flight decel lo hi s live
  have spelled : encodeRequest (.setFlightLimits st flight decel lo hi) = some (st, kindSetFlightLimits, _) := rfl
  split
  · rename_i out
    refine exec_refused spelled live ?_
    show serveSetFlightLimits _ _ _ _ _ _ = _
    unfold serveSetFlightLimits
    rcases out with noFlight | out
    · split
      · rfl
      · rw [driving_noFlight noFlight]
    · rw [limitsOf_none out]
  · rename_i fits
    push Not at fits
    obtain ⟨names, d1, d2, l1, -, -, h2, order⟩ := fits
    have hf : NamesFlight flight ⟨flight.toNat, names⟩ := rfl
    refine ⟨_, hf, ?_⟩
    have served : serveRequest (.setFlightLimits st flight decel lo hi) (markHeard st s) =
        driving st flight (markHeard st s) fun f => accept ((markHeard st s).updFlight f fun r =>
          { r with holdDecel := decel.toNat, loadMin := lo.toInt, loadMax := hi.toInt }) := by
      show serveSetFlightLimits _ _ _ _ _ _ = _
      rw [serveSetFlightLimits, limitsOf_some d1 d2 l1 h2 order]
    split
    · rename_i other
      exact exec_refused spelled live (served.trans (driving_unclaimed hf other))
    · rename_i claim
      exact exec_accepted spelled live (served.trans (driving_claimed hf (not_not.mp claim)))

/-! ### Arming and parking (01, R12, R13, R18, R19) -/

theorem armFlight_ports (f : FlightId) (s : State) : (armFlight f s).ports = (raiseState f s).ports := by
  rw [armFlight, putFlightState_ports]
  exact raiseState_ports_congr f rfl

theorem parkFlight_ports (f : FlightId) (s : State) : (parkFlight f s).ports = (raiseState f s).ports := by
  rw [parkFlight, putFlightState_ports]
  exact raiseState_ports_congr f rfl

/-- Settles O27. -/
theorem armReleases : Obligations.ArmReleases := by
  intro st flight f s hf live claim enable clear
  have spelled : encodeRequest (.arm st flight) = some (st, kindArm, _) := rfl
  have persists : (markHeard st s).persists f = false := (markHeard_persists st s f).trans (not_persists clear)
  have served : serveRequest (.arm st flight) (markHeard st s) =
      if (s.flight f).state ≠ .parked then refuse (markHeard st s) .badState
      else if ∃ n ∈ (s.flight f).members, (s.axis n).measured = none then refuse (markHeard st s) .axisUnavailable
      else accept (armFlight f (markHeard st s)) := by
    show serveArm _ _ _ = _
    rw [serveArm, drivingEnabled_claimed (s := markHeard st s) hf claim ((markHeard_mayStart st s).trans enable), persists]
    simp [State.memberAxes]
  split
  · rename_i away
    exact exec_refused spelled live (served.trans (if_pos away))
  · rename_i parked
    rw [if_neg parked] at served
    split
    · rename_i unmeasured
      exact exec_refused spelled live (served.trans (if_pos unmeasured))
    · rename_i measured
      rw [if_neg measured] at served
      have work := armFlight_work f (markHeard st s)
      refine ⟨_, exec_accepted spelled live served, armFlight_flight_same f _, work.others, fun n hn m hm => ?_, fun n hn => ?_,
        reply_ports_congr (armFlight_ports f _) _ _ _, putFlightState_drivenFrom rfl, work.motion.reply _ _ _⟩
      · have axis : (armFlight f (markHeard st s)).axis n = { s.axis n with state := .releasing, setPoint := m } := by
          simp [armFlight_axis, hn, hm]
        exact ⟨axis, ((putFlightState_driven _ _ _).1 n).trans (by rw [← armFlight, axis]; rfl)⟩
      · exact (armFlight_axis f _ n).trans (if_neg hn)

/-- Settles O28. -/
theorem parkBrakes : Obligations.ParkBrakes := by
  intro st flight f s hf live claim
  have spelled : encodeRequest (.park st flight) = some (st, kindPark, _) := rfl
  have served : serveRequest (.park st flight) (markHeard st s) =
      if (s.flight f).state = .ready ∨ (s.flight f).state = .held then accept (parkFlight f (markHeard st s))
      else refuse (markHeard st s) .badState := driving_claimed hf claim
  split
  · rename_i state
    have work := parkFlight_work f (markHeard st s)
    exact ⟨_, exec_accepted spelled live (served.trans (if_pos state)), parkFlight_flight_same f _, work.others,
      parkFlight_axis f _, reply_ports_congr (parkFlight_ports f _) _ _ _, putFlightState_drivenFrom rfl,
      work.motion.reply _ _ _⟩
  · rename_i state
    exact exec_refused spelled live (served.trans (if_neg state))

/-! ### Membership (01, R7 to R9) -/

theorem bindAxesOf_taken {axes : List Byte} {ns : List AxisId} (spelled : axes.map BitVec.toNat = ns.map Fin.val)
    (some : 1 ≤ ns.length) (few : ns.length ≤ 4) (distinct : ns.Nodup) : bindAxesOf axes = .some ns := by
  have named : axes.filterMap axisOf = ns := by
    clear some few distinct
    induction axes generalizing ns with
    | nil => cases ns <;> simp_all
    | cons b rest ih =>
      cases ns with
      | nil => simp at spelled
      | cons n ns =>
        simp only [List.map_cons, List.cons.injEq] at spelled
        rw [List.filterMap_cons_some (axisOf_some spelled.1), ih spelled.2]
  have len : axes.length = ns.length := by simpa using congrArg List.length spelled
  unfold bindAxesOf
  dsimp only
  rw [named, if_pos ⟨len.symm, by omega, by omega, distinct⟩]

theorem bindAxesOf_none {axes : List Byte}
    (out : axes = [] ∨ 4 < axes.length ∨ (∃ b ∈ axes, 12 ≤ b.toNat) ∨ ¬axes.Nodup) : bindAxesOf axes = none := by
  unfold bindAxesOf
  dsimp only
  rw [if_neg]
  rintro ⟨named, one, four, distinct⟩
  have all : ∀ b ∈ axes, (axisOf b).isSome := List.filterMap_length_eq_length.mp named
  rcases out with rfl | many | ⟨b, hb, beyond⟩ | twice
  · simp at one
  · omega
  · simpa [axisOf_none beyond] using all b hb
  · refine twice ((List.pairwise_filterMap.mp distinct).imp_of_mem fun {a b} ha _ apart same => ?_)
    obtain ⟨n, hn⟩ := Option.isSome_iff_exists.mp (all a ha)
    exact apart n hn n (same ▸ hn) rfl

/-- An axis that a BIND cannot take (01, R7 check 4). -/
theorem unavailableFor_iff (f : FlightId) (a : Axis) :
    unavailableFor f a = true ↔ a.state = .unconfigured ∨ (a.flight ≠ none ∧ a.flight ≠ some f) := by
  simp [unavailableFor]

/-- A BIND with its fields in order is refused by the first check that fails, or taken (01, R7). -/
theorem serveBind_eq {st : Station} {flight : Byte} {axes : List Byte} {f : FlightId} {ns : List AxisId} {s : State}
    (hf : NamesFlight flight f) (hns : bindAxesOf axes = some ns) :
    serveBind st flight axes s =
      if (s.flight f).claim ≠ some st then refuse s .notClaimed
      else if (s.flight f).state ≠ .free ∧ (s.flight f).state ≠ .parked then refuse s .badState
      else if ∃ n ∈ ns, (s.axis n).state = .unconfigured ∨ ((s.axis n).flight ≠ none ∧ (s.axis n).flight ≠ some f) then
        refuse s .axisUnavailable
      else if ∃ n ∈ ns, (s.axis n).state = .faulted then refuse s .axisFault
      else accept (bindMembers f ns s) := by
  rw [serveBind, flightOf_of_names hf, hns]
  simp only [List.any_eq_true, unavailableFor_iff, decide_eq_true_eq]

/-- A flight that was FREE becomes PARKED, with its notice and its outputs; a PARKED one stays as it is (01, R8). -/
theorem bindMembers_shown (f : FlightId) (ns : List AxisId) (s : State) :
    if (s.flight f).state = .free then
      (bindMembers f ns s).ports = (raiseState f s).ports ∧ OutputsDriven s (bindMembers f ns s)
    else (bindMembers f ns s).ports = s.ports ∧ OutputsKept s (bindMembers f ns s) := by
  unfold bindMembers
  dsimp only
  split
  · rw [putFlightState_ports]
    exact ⟨raiseState_ports_congr f rfl, putFlightState_drivenFrom rfl⟩
  · exact ⟨rfl, rfl, rfl, rfl⟩

/-- BIND of an accepted list: the new members, those left out, and what the stations see (01, R8). -/
theorem bind_taken {st : Station} {flight : Byte} {f : FlightId} {axes : List Byte} {ns : List AxisId} {s : State}
    (hf : NamesFlight flight f) (live : s.resetAsserted = false) (hns : bindAxesOf axes = some ns)
    (claim : (s.flight f).claim = some st) (state : (s.flight f).state = .free ∨ (s.flight f).state = .parked)
    (fits : ∀ n ∈ ns, (s.axis n).state ≠ .unconfigured ∧ (s.axis n).state ≠ .faulted ∧
      ((s.axis n).flight = none ∨ (s.axis n).flight = some f)) :
    exec (.bind st flight axes) s = .next (reply st kindBind .done (bindMembers f ns (markHeard st s))) := by
  refine exec_accepted (i := .bind st flight axes) rfl live ?_
  show serveBind _ _ _ _ = _
  rw [serveBind_eq hf hns, if_neg (by simp [claim]), if_neg, if_neg, if_neg]
  · rintro ⟨n, hn, faulted⟩
    exact (fits n hn).2.1 faulted
  · rintro ⟨n, hn, unconfigured | ⟨bound, elsewhere⟩⟩
    · exact (fits n hn).1 unconfigured
    · exact (fits n hn).2.2.elim bound elsewhere
  · rintro ⟨notFree, notParked⟩
    exact state.elim notFree notParked

theorem unbindMembers_ports (f : FlightId) (s : State) : (unbindMembers f s).ports = (raiseState f s).ports := by
  rw [unbindMembers, putFlightState_ports]
  exact raiseState_ports_congr f rfl

/-- Settles O24. -/
theorem bindAndUnbind : Obligations.BindAndUnbind := by
  refine ⟨fun st flight axes s live out => ?_, fun st flight f axes ns s hf live spelled one four nodup => ?_,
    fun st flight f axes ns s hf live spelled one four nodup claim state fits => ?_, fun st flight f s hf live => ?_⟩
  · refine exec_refused (i := .bind st flight axes) rfl live ?_
    show serveBind _ _ _ _ = _
    unfold serveBind
    rcases out with noFlight | out
    · rw [flightOf_none noFlight]
    · rw [bindAxesOf_none out]
      cases flightOf flight <;> rfl
  · have served := serveBind_eq (st := st) (s := markHeard st s) hf (bindAxesOf_taken spelled one four nodup)
    have refused {code : ResultCode} (h : serveBind st flight axes (markHeard st s) = refuse (markHeard st s) code) :
        exec (.bind st flight axes) s = .next (answer st kindBind code s) :=
      exec_refused (i := .bind st flight axes) rfl live h
    refine ⟨fun other => refused (served.trans (if_pos other)), fun claim notFree notParked => ?_, fun claim state => ?_⟩
    · exact refused (served.trans ((if_neg (not_not.mpr claim)).trans (if_pos ⟨notFree, notParked⟩)))
    · have servable : ¬((s.flight f).state ≠ .free ∧ (s.flight f).state ≠ .parked) := fun h => state.elim h.1 h.2
      have checked := served.trans ((if_neg (not_not.mpr claim)).trans (if_neg servable))
      exact ⟨fun away => refused (checked.trans (if_pos away)), fun here faulted =>
        refused (checked.trans ((if_neg (by simpa using here)).trans (if_pos faulted)))⟩
  · have work := bindMembers_work f ns (markHeard st s)
    have shown := bindMembers_shown f ns (markHeard st s)
    refine ⟨_, bind_taken hf live (bindAxesOf_taken spelled one four nodup) claim state fits,
      bindMembers_flight_same f ns _ state, work.others, fun n hn => ?_, fun n hn => ?_, work.motion.reply _ _ _, ?_⟩
    · refine ((bindMembers_axis f ns _ n).trans (if_pos hn)).trans ?_
      by_cases free : (s.flight f).state = .free <;> simp [free]
    · exact (bindMembers_axis f ns _ n).trans (if_neg hn)
    · rw [markHeard_flight] at shown
      split at shown
      · rename_i free
        rw [if_pos free]
        exact ⟨reply_ports_congr shown.1 _ _ _, shown.2⟩
      · rename_i bound
        rw [if_neg bound]
        exact ⟨reply_ports_congr shown.1 _ _ _, shown.2⟩
  · have spelled : encodeRequest (.unbind st flight) = some (st, kindUnbind, _) := rfl
    split
    · rename_i other
      exact exec_refused spelled live (driving_unclaimed hf other)
    · rename_i claim
      have served : serveRequest (.unbind st flight) (markHeard st s) =
          if (s.flight f).state = .parked then accept (unbindMembers f (markHeard st s))
          else refuse (markHeard st s) .badState := driving_claimed hf (not_not.mp claim)
      split
      · rename_i parked
        have work := unbindMembers_work f (markHeard st s)
        exact ⟨_, exec_accepted spelled live (served.trans (if_pos parked)), unbindMembers_flight_same f _, work.others,
          unbindMembers_axis f _, reply_ports_congr (unbindMembers_ports f _) _ _ _, putFlightState_drivenFrom rfl,
          work.motion.reply _ _ _⟩
      · rename_i away
        exact exec_refused spelled live (served.trans (if_neg away))

/-! ### Axis parameters (01, R5, R6) -/

/-- A CONFIGURE-AXIS with a parameter out of its range is not taken (01, R5 check 1). -/
theorem paramsOf_none {address : Byte} {lower upper vmax : Word} {amax : Half} {window : Word} {slot : Byte}
    (out : address.toNat < 0x08 ∨ 0x77 < address.toNat ∨ lower.toInt < 0 ∨ upper.toInt ≤ lower.toInt ∨
      60000000 < upper.toInt ∨ vmax.toNat < 1 ∨ 192000 < vmax.toNat ∨ amax.toNat < 1 ∨ 1024 < amax.toNat ∨
      window.toNat < 1 ∨ 1000000 < window.toNat ∨ (slot ≠ 0xFF ∧ 8 ≤ slot.toNat)) :
    paramsOf address lower upper vmax amax window slot = none := by
  cases taken : paramsOf address lower upper vmax amax window slot with
  | none => rfl
  | some p =>
    unfold paramsOf at taken
    split at taken
    · cases taken
    · rename_i k field
      split at taken
      · rename_i range
        simp only [Bool.and_eq_true, decide_eq_true_eq, inRange_iff, maxSpeed, maxAccel, maxWindow] at range
        have top : maxPosition = 60000000 := rfl
        rw [top] at range
        have slots : ¬(slot ≠ 0xFF ∧ 8 ≤ slot.toNat) := fun h => by
          rw [slotFieldOf, if_neg h.1, slotOf_none h.2] at field
          cases field
        simp only [slots, or_false] at out
        omega
      · cases taken

theorem changesAddress_iff (a : Axis) (p : AxisParams) :
    changesAddress a p = true ↔ a.params.map AxisParams.address ≠ some p.address := decide_eq_true_iff

/-- A CONFIGURE-AXIS with its fields in order is refused by the first check that fails, or taken (01, R5). -/
theorem serveConfigureAxis_eq {st : Station} {axis address : Byte} {lower upper vmax : Word} {amax : Half} {window : Word}
    {slot : Byte} {n : AxisId} {p : AxisParams} {s : State} (hn : axis.toNat = n.val)
    (hp : paramsOf address lower upper vmax amax window slot = some p) :
    serveConfigureAxis st axis address lower upper vmax amax window slot s =
      if ∃ f, (s.axis n).flight = some f ∧ (s.flight f).claim ≠ some st then refuse s .notClaimed
      else if ∃ f, (s.axis n).flight = some f ∧ (s.flight f).state ≠ .parked then refuse s .axisUnavailable
      else if ∃ m, m ≠ n ∧ (s.axis m).state ≠ .unconfigured ∧ (s.axis m).params.map AxisParams.address = some p.address then
        refuse s .addressInUse
      else if (s.axis n).missedStreak = 3 then refuse s .axisFault
      else accept (configureAxis n p s) := by
  have limit : streakLimit = 3 := rfl
  rw [serveConfigureAxis, axisOf_some hn, hp, limit]
  simp only [Option.any_eq_true, decide_eq_true_eq, addressTaken_iff]


/-- What an accepted CONFIGURE-AXIS makes of the axes, the exchange and the outputs (01, R6; 07, R125). -/
theorem configureAxis_exchange (n : AxisId) (p : AxisParams) (s : State) :
    (configureAxis n p s).exchange =
      if (s.axis n).params.map AxisParams.address ≠ some p.address then
        s.exchange.map fun x => if x.axis = n then { x with discarded := true } else x
      else s.exchange := by
  simp only [← changesAddress_iff, configureAxis]
  split <;> rfl

theorem configureAxis_motion (n : AxisId) (p : AxisParams) (s : State) :
    OnlyMotionChanged { s with exchange := (configureAxis n p s).exchange } (configureAxis n p s) := by
  unfold configureAxis
  dsimp only
  split <;> rfl

theorem configureAxis_driven (n : AxisId) (p : AxisParams) (s : State) : OutputsDriven s (configureAxis n p s) := by
  unfold configureAxis
  dsimp only
  split <;> exact putAxis_driven n (fun a => a.configured p) s

theorem configureAxis_ports (n : AxisId) (p : AxisParams) (s : State) : (configureAxis n p s).ports = s.ports := by
  unfold configureAxis
  dsimp only
  split <;> rfl

/-- Settles O25. -/
theorem configureAxisStores : Obligations.ConfigureAxisStores := by
  refine ⟨fun st axis address lower upper vmax amax window slot s live out => ?_,
    fun st axis address lower upper vmax amax window slot n k s live hn a1 a2 l0 lu u1 v1 v2 m1 m2 w1 w2 hk => ?_⟩
  · refine exec_refused (i := .configureAxis st axis address lower upper vmax amax window slot) rfl live ?_
    show serveConfigureAxis _ _ _ _ _ _ _ _ _ _ = _
    unfold serveConfigureAxis
    rcases out with noAxis | out
    · rw [axisOf_none noAxis]
    · rw [paramsOf_none out]
      cases axisOf axis <;> rfl
  · intro p a first moved result refused taken
    have hp : paramsOf address lower upper vmax amax window slot = some p := paramsOf_some a1 a2 l0 lu u1 v1 v2 m1 m2 w1 w2 hk
    have served := serveConfigureAxis_eq (st := st) (s := markHeard st s) hn hp
    have refusal {code : ResultCode} (h : serveConfigureAxis st axis address lower upper vmax amax window slot (markHeard st s) =
        refuse (markHeard st s) code) : refused code :=
      exec_refused (i := .configureAxis st axis address lower upper vmax amax window slot) rfl live h
    split
    · exact refusal (served.trans (if_pos ‹_›))
    rename_i claimed
    replace served := served.trans (if_neg claimed)
    split
    · exact refusal (served.trans (if_pos ‹_›))
    rename_i parked
    replace served := served.trans (if_neg parked)
    split
    · exact refusal (served.trans (if_pos ‹_›))
    rename_i fresh
    replace served := served.trans (if_neg fresh)
    split
    · exact refusal (served.trans (if_pos ‹_›))
    rename_i streak
    replace served := served.trans (if_neg streak)
    refine ⟨_, exec_accepted (i := .configureAxis st axis address lower upper vmax amax window slot) rfl live served, ?_,
      fun m hm => ?_, configureAxis_exchange n p _, configureAxis_flights n p _, reply_ports_congr (configureAxis_ports n p _) _ _ _,
      configureAxis_driven n p (markHeard st s), (configureAxis_motion n p (markHeard st s)).reply _ _ _⟩
    · refine ((configureAxis_axis n n p _).trans (if_pos rfl)).trans ?_
      simp only [configured_eq, changesAddress_iff]
      rfl
    · exact (configureAxis_axis n m p _).trans (if_neg hm)

end Sys2Proof.Machine
end

section
namespace Sys2Proof.Machine

/-! ## Trips on request and at a timer's end (05, R93 to R97; 01, R15) -/

/-! ### Outputs driven more than once -/

/-- The sounder that a second drive gives is the one that it alone would give, where a flight that is TRIPPED then was TRIPPED at
the first drive. -/
theorem nextSounder_again {early late steady steady' : Bool} (h : late = true → early = true) (x : Sounder) :
    nextSounder late steady' (nextSounder early steady x) = nextSounder late steady' x := by
  unfold nextSounder
  cases late
  · rfl
  · cases x <;> simp [h]

section
variable {s t u : State}

theorem OutputsDriven.again (h : OutputsDriven s t) (k : OutputsDriven t u) (tripped : u.anyTripped = true → t.anyTripped = true) :
    OutputsDriven s u :=
  ⟨k.1, by rw [k.2.1, h.2.1, nextSounder_again tripped], k.2.2⟩

theorem OutputsDriven.kept (h : OutputsDriven s t) (k : StatesKept t u) : OutputsDriven s u := by
  have tripped : u.anyTripped = t.anyTripped := by simp [State.anyTripped, k.flights]
  have steady : u.anySteady = t.anySteady := by simp [State.anySteady, k.flights]
  have faulted : u.anyFaulted = t.anyFaulted := by simp [State.anyFaulted, k.axes]
  refine ⟨fun n => ?_, ?_, ?_⟩
  · rw [released_congr (k.axes n), ← h.1 n]; simp [State.brake, k.outputs.1]
  · rw [k.outputs.2.1, h.2.1, tripped, steady]
  · rw [k.outputs.2.2, h.2.2, tripped, faulted]

end

/-! ### STATE notices of several flights -/

theorem stateRaised_none {p : Port} {moved : FlightId → Bool} (none : ∀ f, moved f = false) : p.stateRaised moved = p := by
  have : mapAt p.flightNotices (fun f x => if moved f then { x with state := true } else x) = p.flightNotices :=
    vector_ext_fin fun f => by rw [getElem_mapAt, none f]; rfl
  unfold Port.stateRaised
  rw [this]

theorem stateRaised_stateRaised (p : Port) (a b : FlightId → Bool) :
    (p.stateRaised a).stateRaised b = p.stateRaised fun f => a f || b f := by
  unfold Port.stateRaised
  congr 1
  refine vector_ext_fin fun f => ?_
  rw [getElem_mapAt, getElem_mapAt, getElem_mapAt]
  by_cases ha : a f = true <;> simp [ha]

theorem raiseState_port_raised (f : FlightId) (s : State) (u : Station) :
    (raiseState f s).port u = (s.port u).stateRaised fun g => decide (g = f) := by
  have notices : updAt (s.port u).flightNotices f (fun x => { x with state := true }) =
      mapAt (s.port u).flightNotices fun g x => if decide (g = f) then { x with state := true } else x :=
    vector_ext_fin fun g => by
      rw [getElem_mapAt, getElem_updAt]
      by_cases e : g = f <;> simp [e]
  rw [raiseState_port, notices]
  rfl

theorem port_congr {s t : State} (h : t.ports = s.ports) (u : Station) : t.port u = s.port u := by unfold State.port; rw [h]

theorem tripFlight_port (f : FlightId) (cause : TripCause) (s : State) (u : Station) :
    (tripFlight f cause s).port u = (s.port u).stateRaised fun g => decide (g = f) && (s.flight g).state.trips := by
  have ports := tripFlight_ports f cause s
  cases trips : (s.flight f).state.trips
  · rw [trips, if_neg (by decide)] at ports
    rw [port_congr ports, stateRaised_none]
    intro g
    by_cases e : g = f
    · subst e; simp [trips]
    · simp [e]
  · rw [trips, if_pos rfl] at ports
    rw [port_congr ports, raiseState_port_raised]
    congr 1
    funext g
    by_cases e : g = f
    · subst e; simp [trips]
    · simp [e]

/-! ### Trips of a list of flights -/

section
variable (cause : TripCause) (l : List FlightId)

theorem tripFlight_state_same (f : FlightId) (s : State) (trips : (s.flight f).state.trips = true) :
    ((tripFlight f cause s).flight f).state = .tripped := by
  rw [tripFlight_flight_same]
  unfold Flight.afterTrip
  split <;> rename_i state <;> simp_all [FlightState.trips]

theorem tripList_ports (nodup : l.Nodup) (s : State) (u : Station) :
    (l.foldl (fun t g => tripFlight g cause t) s).port u =
      (s.port u).stateRaised fun f => decide (f ∈ l) && (s.flight f).state.trips := by
  induction l generalizing s with
  | nil => rw [stateRaised_none (by simp)]; rfl
  | cons g l ih =>
    obtain ⟨hg, nodup⟩ := List.nodup_cons.mp nodup
    rw [List.foldl_cons, ih nodup, tripFlight_port, stateRaised_stateRaised]
    congr 1
    funext f
    by_cases e : f = g
    · subst e; simp [hg]
    · simp [e, tripFlight_others g cause s f e]

/-- Trips drive the outputs where one of them has an effect on its flight's state, and leave them alone elsewhere. -/
theorem tripList_outputs (nodup : l.Nodup) (s : State) :
    ((∃ f ∈ l, (s.flight f).state.trips = true) → OutputsDriven s (l.foldl (fun t g => tripFlight g cause t) s)) ∧
      ((∀ f ∈ l, (s.flight f).state.trips = false) → StatesKept s (l.foldl (fun t g => tripFlight g cause t) s)) := by
  induction l generalizing s with
  | nil => exact ⟨by simp, fun _ => .refl s⟩
  | cons g l ih =>
    obtain ⟨hg, nodup⟩ := List.nodup_cons.mp nodup
    obtain ⟨driven, kept⟩ := ih nodup (tripFlight g cause s)
    have same : ∀ f ∈ l, (tripFlight g cause s).flight f = s.flight f :=
      fun f hf => tripFlight_others g cause s f (by rintro rfl; exact hg hf)
    rw [List.foldl_cons]
    by_cases later : ∃ f ∈ l, (s.flight f).state.trips = true
    · have driven := driven (by obtain ⟨f, hf, h⟩ := later; exact ⟨f, hf, (same f hf).symm ▸ h⟩)
      refine ⟨fun _ => ?_, fun none => ?_⟩
      · cases trips : (s.flight g).state.trips
        · exact (tripFlight_statesKept trips).driven driven
        · exact (tripFlight_driven trips).again driven fun _ =>
            (anyTripped_iff _).mpr ⟨g, tripFlight_state_same cause g s trips⟩
      · obtain ⟨f, hf, h⟩ := later
        exact absurd (none f (List.mem_cons_of_mem _ hf)) (by simp [h])
    · push Not at later
      have kept := kept fun f hf => by rw [same f hf]; simpa using later f hf
      refine ⟨fun ⟨f, hf, trips⟩ => ?_, fun none => (tripFlight_statesKept (none g List.mem_cons_self)).trans kept⟩
      rcases List.mem_cons.mp hf with rfl | hf
      · exact (tripFlight_driven trips).kept kept
      · exact absurd trips (later f hf)

end

theorem tripEvery_port (cause : TripCause) (s : State) (u : Station) :
    (tripEvery cause s).port u = (s.port u).stateRaised fun f => (s.flight f).state.trips := by
  have ports := tripList_ports cause _ allFlights_nodup s u
  simpa [mem_allFlights, tripEvery] using ports

theorem tripEvery_outputs (cause : TripCause) (s : State) :
    if ∃ f, (s.flight f).state.trips = true then OutputsDriven s (tripEvery cause s) else OutputsKept s (tripEvery cause s) := by
  obtain ⟨driven, kept⟩ := tripList_outputs cause _ allFlights_nodup s
  split
  · rename_i h
    obtain ⟨f, trips⟩ := h
    exact driven ⟨f, mem_allFlights f, trips⟩
  · rename_i none
    push Not at none
    exact (kept fun f _ => by simpa using none f).outputs

/-! ### STOP (05, R94, R95, R97) -/

theorem trips_decide (x : FlightState) : x.trips = decide (x ≠ .free ∧ x ≠ .tripped) := by cases x <;> rfl

theorem flightOf_stopAll : flightOf 0xFF = none := rfl

/-- Settles O44. -/
theorem tripTable : Obligations.TripTable := by
  intro st s live
  refine ⟨fun flight noFlight one => ?_, fun flight f hf => ?_, ?_⟩
  · refine exec_refused (i := .stop st flight) rfl live ?_
    show serveStop _ _ _ = _
    rw [serveStop, if_neg one, flightOf_none noFlight]
  · have one : flight ≠ 0xFF := by
      rintro rfl
      exact absurd (flightOf_of_names hf) (by rw [flightOf_stopAll]; simp)
    have served : serveRequest (.stop st flight) (markHeard st s) = accept (tripFlight f (.stationStop st) (markHeard st s)) := by
      show serveStop _ _ _ = _
      rw [serveStop, if_neg one, flightOf_of_names hf]
    have work := tripFlight_work f (.stationStop st) (markHeard st s)
    refine ⟨_, exec_accepted (i := .stop st flight) rfl live served, work.others, work.motion.reply _ _ _, ?_⟩
    have record := tripFlight_flight_same f (.stationStop st) (markHeard st s)
    have axes := tripFlight_axis f (.stationStop st) (markHeard st s)
    have ports := tripFlight_ports f (.stationStop st) (markHeard st s)
    have driven := tripFlight_driven (f := f) (cause := .stationStop st) (s := markHeard st s)
    split <;> rename_i state
    case h_1 => simp only [tripFlight, markHeard_flight, state]; rfl
    case h_2 => simp only [tripFlight, markHeard_flight, state]
    all_goals
      have trips : (s.flight f).state.trips = true := by rw [state]; rfl
      simp only [markHeard_flight, markHeard_axis, trips, if_true, true_and] at record axes ports
      exact ⟨record.trans (by rw [Flight.afterTrip, state]), axes, reply_ports_congr ports _ _ _, driven trips⟩
  · have served : serveRequest (.stop st 0xFF) (markHeard st s) = accept (tripEvery (.stationStop st) (markHeard st s)) := by
      show serveStop _ _ _ = _
      rw [serveStop, if_pos rfl]
    obtain ⟨flights, motion, axes⟩ := tripEvery_spec (.stationStop st) (markHeard st s)
    have outputs := tripEvery_outputs (.stationStop st) (markHeard st s)
    have ports := tripEvery_port (.stationStop st) (markHeard st s)
    simp only [trips_decide, markHeard_flight, decide_eq_true_eq, and_assoc] at outputs axes ports
    generalize tripEvery (.stationStop st) (markHeard st s) = v at served flights motion axes outputs ports
    refine ⟨_, exec_accepted (i := .stop st 0xFF) rfl live served, motion.reply _ _ _, flights, outputs, fun u => ?_, axes⟩
    simp only [answer, reply, startReply_port, ports]
    split <;> rfl

/-! ### The timers of a brake release and of the sounder (01, R15; 09, R170) -/

/-- Settles O29. -/
theorem loneExpiries : Obligations.LoneExpiries := by
  refine ⟨fun f n before after k s running state timer short members releasing first => ?_, fun sounding s running pulsed => ?_⟩
  · have found : firstReleasing f s = some n := by
      rw [firstReleasing, members, List.find?_append, List.find?_eq_none.mpr (by simpa using first)]
      simp [releasing]
    have run : exec (.brakeTimeout f) s = .next (tripFlight f (.brakeTimeout n) s) := by
      show execBrakeTimeout f s = _
      simp [execBrakeTimeout, state, timer, found, running, short]
    have trips : (s.flight f).state.trips = true := by rw [state]; rfl
    refine ⟨_, run, ?_, tripFlight_others _ _ _, fun m => ?_, ?_, tripFlight_driven trips, tripFlight_motion _ _ _⟩
    · rw [tripFlight_flight_same, Flight.afterTrip, state]
    · rw [tripFlight_axis]; simp [trips]
    · rw [tripFlight_ports, if_pos trips]
  · show execSndrPhaseExpiry s = _
    simp [execSndrPhaseExpiry, pulsed, running, phaseSteps]

end Sys2Proof.Machine
end

section
namespace Sys2Proof.Machine

/-! ## Persisting conditions, and a cue beside a hold or a trip (09, R165 to R168) -/

/-! ### Two effects of one event -/

/-- Two effects of one event are taken the one first or the other. -/
theorem takeInAnyOrder_pair {α : Type} {l : List α} {a b : α} (pair : l.Perm [a, b]) (act : α → State → State) (s : State) :
    takeInAnyOrder l act s = act b (act a { s with freeIndex := s.freeIndex + 1 }) ∨
      takeInAnyOrder l act s = act a (act b { s with freeIndex := s.freeIndex + 1 }) := by
  have two : l.length - 1 = 1 := by rw [pair.length_eq]; rfl
  unfold takeInAnyOrder
  rw [two]
  rcases List.perm_pair.mp ((anyOrder_perm l.length l s.freeIndex).trans pair) with order | order <;> rw [order]
  · exact .inl rfl
  · exact .inr rfl

/-- Two links of one source that both act at an event send what both send, and no other link does. -/
theorem linkSends_pair {src : Source} {i j : LinkId} {k l : Link} {s : State} {occurs : Condition → Bool} (ne : i ≠ j)
    (hi : s.link i = some k) (hj : s.link j = some l) (si : k.source = src) (sj : l.source = src) (oi : occurs k.cond = true)
    (oj : occurs l.cond = true) (others : ∀ x m, x ≠ i → x ≠ j → s.link x = some m → m.source ≠ src) :
    (linkSends s src occurs).Perm (sends i k.action ++ sends j l.action) := by
  have acting : (actingLinks s src occurs).Perm [i, j] := by
    refine (List.perm_ext_iff_of_nodup (allLinks_nodup.filter _) (by simpa using ne)).mpr fun x => ?_
    simp only [List.mem_filter, mem_allLinks, true_and, List.mem_cons, List.not_mem_nil, or_false]
    constructor
    · intro acts
      by_contra neither
      push Not at neither
      cases hx : s.link x with
      | none => simp [hx] at acts
      | some m => simp [hx, others x m neither.1 neither.2 hx] at acts
    · rintro (rfl | rfl)
      · simp [hi, si, oi]
      · simp [hj, sj, oj]
  unfold linkSends
  refine (acting.flatMap_right _).trans ?_
  simp [hi, hj]

/-! ### Cues that a condition or the flight's state stops (02, R30) -/

section
variable {s : State} {f : FlightId}

theorem cueFlight_persists (h : s.persists f = true) : cueFlight f s = s := by
  unfold cueFlight
  dsimp only
  split
  · simp [h]
  · rfl
  · rfl

theorem cueFlight_away (h : (s.flight f).state ≠ .ready) : cueFlight f s = s := by
  unfold cueFlight
  dsimp only
  split
  · simp [h]
  · rfl
  · rfl

/-- A cue that finds the flight READY, its gate open and a CUE record at its head starts that record, where the claimer may start
and no condition persists (02, R30). -/
theorem cueFlight_taken {seg : Segment} {rest : List Segment} {st : Station} (ready : (s.flight f).state = .ready)
    (gate : (s.flight f).cueGate = .opened) (queue : (s.flight f).queue = seg :: rest) (start : seg.start = .cue)
    (claim : (s.flight f).claim = some st) (may : s.mayStart st = true) (clear : s.persists f = false) :
    cueFlight f s = (startHead true f s).1 := by
  unfold cueFlight
  simp [queue, claim, ready, gate, start, may, clear]

theorem holdFlight_ready {cause : HoldCause} (ready : (s.flight f).state = .ready) : holdFlight f cause s = s := by
  simp only [holdFlight, ready]

end

/-! ### Requests while a condition persists -/

/-- The answers to ARM, GO, RESUME and RESET-FLIGHT, and a cue, while a condition persists (01, R12; 02, R29, R30; 05, R90, R99). -/
theorem persisting_refuses {st : Station} {flight : Byte} {f : FlightId} {s : State} (hf : NamesFlight flight f)
    (live : s.resetAsserted = false) (claim : (s.flight f).claim = some st) (persists : s.persists f = true) :
    match (s.flight f).state with
    | .parked => s.enables.get st = true → exec (.arm st flight) s = .next (answer st kindArm .conditionPersists s)
    | .ready => s.enables.get st = true → exec (.go st flight) s = .next (answer st kindGo .conditionPersists s)
    | .held => s.enables.get st = true → exec (.resume st flight) s = .next (answer st kindResume .conditionPersists s)
    | .tripped => exec (.resetFlight st flight) s = .next (answer st kindResetFlight .conditionPersists s)
    | _ => True := by
  have heard : (markHeard st s).persists f = true := persists
  have may (enable : s.enables.get st = true) : (markHeard st s).mayStart st = true := (markHeard_mayStart st s).trans enable
  split
  · rename_i state
    refine fun enable => exec_refused (i := .arm st flight) rfl live ?_
    show serveArm _ _ _ = _
    rw [serveArm, drivingEnabled_claimed (s := markHeard st s) hf claim (may enable), heard]
    simp [state]
  · rename_i state
    refine fun enable => exec_refused (i := .go st flight) rfl live ?_
    show serveGo _ _ _ = _
    rw [serveGo, drivingEnabled_claimed (s := markHeard st s) hf claim (may enable), heard]
    simp [state]
  · rename_i state
    refine fun enable => exec_refused (i := .resume st flight) rfl live ?_
    show serveResume _ _ _ = _
    rw [serveResume, drivingEnabled_claimed (s := markHeard st s) hf claim (may enable), heard]
    simp [state]
  · rename_i state
    refine exec_refused (i := .resetFlight st flight) rfl live ?_
    show serveResetFlight _ _ _ = _
    rw [serveResetFlight, driving_claimed (s := markHeard st s) hf claim, heard]
    simp [state]
  · trivial

/-! ### A cue beside a hold or a trip of one event -/

/-- The state in which the links of a line act that is accepted HIGH: the line's record changed, its notice raised, and free choices
counted up to k. -/
def lineRisen (n : LineId) (s : State) (k : Nat) : State :=
  { raiseLineChange n (s.updLine n fun l => { l with filtered := some .high, pending := none }) with freeIndex := k }

theorem exec_filterAccept_risen {n : LineId} {s : State} (live : s.resetAsserted = false) (on : (s.line n).filterOn = true)
    (low : (s.line n).filtered = some .low) (pending : (s.line n).pending = some .high) :
    exec (.filterAccept n) s =
      .next (sourceEvent (.line n) (changeOccurs .high) true (lineRisen n s s.freeIndex)) := by
  show execFilterAccept n s = _
  simp only [execFilterAccept, low, pending, live, on]
  rfl

section
variable {n : LineId} {i j : LinkId} {cond : Condition} {action : Action} {f : FlightId} {s : State} {k : Nat}

/-- A rise and a second condition of its line, each with a link that acts at the rise: the two are taken in either order. -/
theorem risen_pair {e : Effect} (cue : s.link i = some { source := .line n, cond := .rise, action := .cueFlight f })
    (other : s.link j = some { source := .line n, cond := cond, action := action })
    (alone : ∀ k l, k ≠ i → k ≠ j → s.link k = some l → l.source ≠ .line n)
    (occurs : changeOccurs .high cond = true) (sent : sends j action = [e]) (noCue : action ≠ .cueFlight f)
    (noEnable : ∀ u, action ≠ .enableStation u) :
    ∃ k, sourceEvent (.line n) (changeOccurs .high) true (lineRisen n s s.freeIndex) =
        takeEffect e (cueFlight f (lineRisen n s k)) ∨
      sourceEvent (.line n) (changeOccurs .high) true (lineRisen n s s.freeIndex) =
        cueFlight f (takeEffect e (lineRisen n s k)) := by
  have ne : i ≠ j := by
    rintro rfl
    rw [cue] at other
    cases other
    exact noCue rfl
  have links := linkSends_pair (s := lineRisen n s s.freeIndex) (occurs := changeOccurs .high) ne cue other rfl rfl rfl occurs alone
  rw [sent] at links
  have enables : enableEffects (lineRisen n s s.freeIndex) (.line n) = [] := by
    unfold enableEffects
    rw [List.map_eq_nil_iff, List.filter_eq_nil_iff]
    intro st _
    rw [anyLink_iff]
    rintro ⟨k, l, hl, named⟩
    simp only [Bool.and_eq_true, decide_eq_true_eq] at named
    change s.link k = some l at hl
    by_cases ki : k = i
    · subst ki; rw [cue] at hl; cases hl; cases named.2
    by_cases kj : k = j
    · subst kj; rw [other] at hl; cases hl; exact noEnable st named.2
    exact alone k l ki kj hl named.1
  refine ⟨s.freeIndex + 1, ?_⟩
  unfold sourceEvent
  rw [enables, if_pos rfl, List.append_nil]
  exact takeInAnyOrder_pair links takeEffect _

/-- A rise makes no condition of a hold or a trip true but a HIGH one of its own line. -/
theorem risen_clear (cue : s.link i = some { source := .line n, cond := .rise, action := .cueFlight f })
    (other : s.link j = some { source := .line n, cond := .rise, action := action })
    (alone : ∀ k l, k ≠ i → k ≠ j → s.link k = some l → l.source ≠ .line n)
    (clear : ∀ k l, s.link k = some l → l.Targets f → ¬l.ConditionTrue s) : (lineRisen n s k).persists f = false := by
  refine not_persists fun x l hl targets holds => ?_
  change s.link x = some l at hl
  by_cases xi : x = i
  · subst xi; rw [cue] at hl; cases hl; simp [Link.ConditionTrue] at holds
  by_cases xj : x = j
  · subst xj; rw [other] at hl; cases hl; simp [Link.ConditionTrue] at holds
  refine clear x l hl targets ?_
  rcases holds with ⟨m, source, level⟩ | slot
  · refine .inl ⟨m, source, ?_⟩
    have apart : m ≠ n := by rintro rfl; exact alone x l xi xj hl source
    have line : (lineRisen n s k).line m = s.line m := by
      show (s.updLine n _).line m = _
      rw [State.updLine_line, if_neg apart]
    rwa [line] at level
  · exact .inr slot

/-- A HIGH link of a line that rises persists from then on. -/
theorem risen_persists (other : s.link j = some { source := .line n, cond := .high, action := action })
    (targets : action = .holdFlight f ∨ action = .tripFlight f) : (lineRisen n s k).persists f = true := by
  refine (persists_iff _ f).mpr ⟨j, _, other, ?_, .inl ⟨n, rfl, .inl ⟨rfl, ?_⟩⟩⟩
  · rcases targets with e | e <;> simp [Link.Targets, e]
  · show ((s.updLine n _).line n).filtered = _
    rw [State.updLine_line_same]

/-- A trip of a READY flight at a rise, whatever a cue behind it: the cue finds the flight TRIPPED. -/
theorem risen_tripped {cause : TripCause} (ready : (s.flight f).state = .ready) :
    (cueFlight f (tripFlight f cause (lineRisen n s k))).flight f = (s.flight f).afterTrip cause := by
  have tripped : ((tripFlight f cause (lineRisen n s k)).flight f).state = .tripped :=
    tripFlight_state_same _ _ _ (by show (s.flight f).state.trips = true; rw [ready]; rfl)
  rw [cueFlight_away (by simp [tripped]), tripFlight_flight_same]
  rfl

end

/-- Settles O20: of the two links that act at the rise the one sends the cue; whether the cue is taken rests on the condition of the
other, and on what the other sends where that is met first. -/
theorem persistingConditionRefuses : Obligations.PersistingConditionRefuses := by
  refine ⟨fun st flight f i l s hf live claim link targets holds => ?_,
    fun n i j cond action f st seg rest s live on low pending cue other alone ready gate queue start claim enable active clear fits
      loads => ?_⟩
  · have persists := (persists_iff s f).mpr ⟨i, l, link, targets, holds⟩
    exact ⟨cueFlight_persists persists, persisting_refuses hf live claim persists⟩
  intro act started stopped
  have taken (k : Nat) (edge : cond = .rise) : (cueFlight f (lineRisen n s k)).flight f = started := by
    subst edge
    rw [cueFlight_taken (s := lineRisen n s k) ready gate queue start claim ((mayStart_iff _ _).mpr ⟨enable, active⟩)
      (risen_clear cue other alone clear)]
    exact startHead_flight_fits queue ⟨fits, loads⟩
  have held (k : Nat) : holdFlight f (.linkHold j) (lineRisen n s k) = lineRisen n s k := holdFlight_ready ready
  refine ⟨_, exec_filterAccept_risen live on low pending, ?_, ?_, ?_, ?_⟩ <;> rintro rfl rfl <;>
    obtain ⟨k, order⟩ := risen_pair cue other alone rfl rfl (by simp) (by simp)
  · rcases order with e | e <;> rw [e, takeEffect]
    · exact .inl (by rw [holdFlight_flight_same, taken k rfl])
    · exact .inr (by rw [held, taken k rfl])
  · have persists := risen_persists (k := k) other (.inl rfl)
    rcases order with e | e <;> rw [e, takeEffect]
    · rw [cueFlight_persists persists, held]; rfl
    · rw [held, cueFlight_persists persists]; rfl
  · rcases order with e | e <;> rw [e, takeEffect]
    · exact .inl (by rw [tripFlight_flight_same, taken k rfl])
    · exact .inr (risen_tripped ready)
  · have persists := risen_persists (k := k) other (.inr rfl)
    rcases order with e | e <;> rw [e, takeEffect]
    · rw [cueFlight_persists persists, tripFlight_flight_same]; rfl
    · exact risen_tripped ready

end Sys2Proof.Machine
end

section
namespace Sys2Proof.Machine

/-! ## Completed reads (04, R67 to R78; 07, R130) -/

/-! ### The checks of a read -/

theorem overtravels_iff (p : AxisParams) (pos : Int) :
    overtravels p pos = true ↔ pos < p.lower - p.window ∨ p.upper + p.window < pos := by
  simp [overtravels]

theorem lagsBehind_iff (p : AxisParams) (last : Option LastWrite) (pos : Int) :
    lagsBehind p last pos = true ↔ ∃ w, last = some w ∧ (p.window : Int) < |pos - w.setPoint| := by
  simp only [lagsBehind, Option.any_eq_true, decide_eq_true_eq, Int.abs_eq_natAbs, Nat.cast_lt]

theorem brakeMismatched_iff (a : Axis) (status : Byte) :
    brakeMismatched a status = true ↔
      status.getLsbD 5 = true ∧ ∀ w, a.lastWrite = some w → w.release = false := by
  cases e : a.lastWrite <;> simp [brakeMismatched, statusBrakeOpen, e]

/-- What a read that passes every check does behind the checks, by the state of its axis (04, R67, R70, R72, R77). -/
def readPassed (n : AxisId) (pos : Int) (status : Byte) (s : State) : State :=
  match (s.axis n).state with
  | .unconfigured | .faulted | .following => s
  | .braked => if tracks s n then s.updAxis n fun a => { a with setPoint := pos } else s
  | .releasing =>
    if status.getLsbD 5 then confirmArming n (putAxis n (fun a => { a with state := .following }) s) else s

/-- The state in which a read's failed check is met: a confirmed release has taken the axis to FOLLOWING before (04, R72). -/
def readChecked (n : AxisId) (status : Byte) (s : State) : State :=
  if (s.axis n).state = .releasing ∧ status.getLsbD 6 = false ∧ status.getLsbD 5 = true then
    putAxis n (fun a => { a with state := .following }) s
  else s

/-- The supervision of a read fails with the verdict of 04, R70 to R75, or passes. -/
theorem supervise_eq {x : Turn} {pos : Int} {status : Byte} {p : AxisParams} {s : State} (params : (s.axis x.axis).params = some p) :
    supervise x pos status s =
      match readVerdict (s.axis x.axis) p pos (status.getLsbD 6) (status.getLsbD 5) with
      | some cause => faultAtRead x cause (readChecked x.axis status s)
      | none => readPassed x.axis pos status s := by
  unfold supervise readVerdict readPassed readChecked
  dsimp only
  cases state : (s.axis x.axis).state <;> simp only [statusFault, statusBrakeOpen, brakeMismatched_iff, releasedVerdict, params,
    ← overtravels_iff, ← lagsBehind_iff]
  case braked =>
    split <;> rename_i fault
    · simp
    · split <;> simp
  case releasing =>
    cases status.getLsbD 6
    · cases status.getLsbD 5 <;> cases overtravels p pos <;> cases lagsBehind p (s.axis x.axis).lastWrite pos <;> simp [judge]
    · simp
  case following =>
    cases status.getLsbD 6
    · cases status.getLsbD 5 <;> cases overtravels p pos <;> cases lagsBehind p (s.axis x.axis).lastWrite pos <;> simp [judge]
    · simp

/-! ### The round behind a read -/

section
variable {s t u : State}

/-- From s to t the bus controller's round goes on over the same configured axes. -/
structure RoundKept (s t : State) : Prop where
  axes : ∀ n, (t.axis n).state = .unconfigured ↔ (s.axis n).state = .unconfigured
  round : t.round = s.round
  pending : t.roundPending = s.roundPending

theorem RoundKept.refl (s : State) : RoundKept s s := ⟨fun _ => .rfl, rfl, rfl⟩

theorem RoundKept.trans (h : RoundKept s t) (k : RoundKept t u) : RoundKept s u :=
  ⟨fun n => (k.axes n).trans (h.axes n), k.round.trans h.round, k.pending.trans h.pending⟩

theorem TurnPassed.of_kept {x : Turn} (h : RoundKept s t) (passed : TurnPassed x t u) : TurnPassed x s u := by
  obtain ⟨ended, write, next, last, folded⟩ := passed
  simp only [ne_eq, h.axes, h.round, h.pending] at write next last folded
  exact ⟨ended, write, next, last, folded⟩

theorem brakedDown_unconfigured (a : Axis) : a.brakedDown.state = .unconfigured ↔ a.state = .unconfigured := by
  unfold Axis.brakedDown
  split
  · rename_i released
    rcases (released_iff a).mp released with e | e <;> simp [e]
  · exact .rfl

theorem putAxis_roundKept {n : AxisId} {g : Axis → Axis} (state : (g (s.axis n)).state = .unconfigured ↔ (s.axis n).state = .unconfigured) :
    RoundKept s (putAxis n g s) := by
  refine ⟨fun m => ?_, rfl, rfl⟩
  rw [putAxis_axis]
  split
  · rename_i e; subst e; exact state
  · exact .rfl

theorem tripFlight_roundKept (f : FlightId) (cause : TripCause) (s : State) : RoundKept s (tripFlight f cause s) := by
  have motion := tripFlight_motion f cause s
  refine ⟨fun n => ?_, motion.round, motion.roundPending⟩
  rw [tripFlight_axis]
  split
  · exact brakedDown_unconfigured _
  · exact .rfl

theorem faultAxis_roundKept (n : AxisId) (cause : FaultCause) (s : State) : RoundKept s (faultAxis n cause s) := by
  rcases faultAxis_cases n cause s with ⟨-, e⟩ | ⟨live, rest⟩
  · rw [e]; exact .refl s
  · have faulted : RoundKept s (putAxis n (fun a => { a with state := .faulted, faultCause := some cause }) s) :=
      putAxis_roundKept (by rcases live with e | e | e <;> simp [e])
    rcases rest with ⟨-, e⟩ | ⟨f, -, e⟩ <;> rw [e]
    · exact faulted
    · exact faulted.trans (tripFlight_roundKept _ _ _)

theorem passTurn_flight (x : Turn) (s : State) (f : FlightId) : (passTurn x s).flight f = s.flight f := by rw [passTurn_frame]; rfl

theorem passTurn_axis (x : Turn) (s : State) (n : AxisId) : (passTurn x s).axis n = s.axis n := by rw [passTurn_frame]; rfl

theorem OutputsDriven.passed (h : OutputsDriven s t) (x : Turn) : OutputsDriven s (passTurn x t) := by
  rw [passTurn_frame]; exact h

/-! ### A failed check -/

/-- An axis fault that has an effect drives the outputs, from the state with the axis FAULTED at the latest. -/
theorem faultAxis_driven {n : AxisId} {cause : FaultCause}
    (live : (s.axis n).state = .braked ∨ (s.axis n).state = .releasing ∨ (s.axis n).state = .following) :
    ∃ u, OutputsDriven u (faultAxis n cause s) := by
  rcases faultAxis_cases n cause s with ⟨idle, -⟩ | ⟨-, ⟨-, e⟩ | ⟨f, -, e⟩⟩
  · rcases idle with e | e <;> simp [e] at live
  · exact ⟨s, e ▸ putAxis_driven _ _ _⟩
  · rw [e]
    rcases tripFlight_tracked f (.axisFault cause n) (putAxis n (fun a => { a with state := .faulted, faultCause := some cause }) s)
      with driven | kept
    · exact ⟨_, driven⟩
    · exact ⟨s, (putAxis_driven _ _ _).kept kept⟩

/-- Behind a fault that has an effect the axis's brake line is off and FLT is asserted (09, R169, R171). -/
theorem faultAxis_lines {n : AxisId} {cause : FaultCause}
    (live : (s.axis n).state = .braked ∨ (s.axis n).state = .releasing ∨ (s.axis n).state = .following) :
    (faultAxis n cause s).brake n = false ∧ (faultAxis n cause s).faultLine = true := by
  obtain ⟨u, brakes, -, line⟩ := faultAxis_driven (cause := cause) live
  have faulted : ((faultAxis n cause s).axis n).state = .faulted := by rw [(faultAxis_axes live).1]; rfl
  refine ⟨(brakes n).trans (by simp [Axis.released, faulted]), line.trans ?_⟩
  rw [Bool.or_eq_true, anyFaulted_iff]
  exact .inr ⟨n, faulted⟩

/-- What an axis fault makes of the flights: the axis's own is tripped, the others stay (01, R3). -/
theorem faultAxis_flights {n : AxisId} {cause : FaultCause}
    (live : (s.axis n).state = .braked ∨ (s.axis n).state = .releasing ∨ (s.axis n).state = .following) (f : FlightId) :
    (faultAxis n cause s).flight f =
      if (s.axis n).flight = some f then (s.flight f).afterTrip (.axisFault cause n) else s.flight f := by
  rcases faultAxis_cases n cause s with ⟨idle, -⟩ | ⟨-, ⟨unbound, e⟩ | ⟨g, bound, e⟩⟩
  · rcases idle with e | e <;> simp [e] at live
  · rw [e, unbound]; simp
  · rw [e, bound]
    by_cases own : f = g
    · subst own; rw [tripFlight_flight_same, if_pos rfl]; rfl
    · rw [tripFlight_others _ _ _ _ own, if_neg (by simpa using Ne.symm own)]; rfl

end

/-- From s to t nothing has changed but axis records and output lines. -/
def AxesFramed (s t : State) : Prop :=
  t = { s with axes := t.axes, brakes := t.brakes, sounder := t.sounder, faultLine := t.faultLine }

theorem AxesFramed.trans {s t u : State} (h : AxesFramed s t) (k : AxesFramed t u) : AxesFramed s u := by
  unfold AxesFramed at *
  rw [k, h]

/-- The passing of the turn behind changes of axis records and output lines. -/
theorem AxesFramed.passed {s t : State} (h : AxesFramed s t) (x : Turn) :
    passTurn x t =
      { s with axes := (passTurn x t).axes, exchange := none, turn := (passTurn x t).turn, round := (passTurn x t).round
               roundPending := (passTurn x t).roundPending, brakes := (passTurn x t).brakes, sounder := (passTurn x t).sounder
               faultLine := (passTurn x t).faultLine } := by
  have passed := passTurn_frame x t
  generalize passTurn x t = r at passed ⊢
  unfold AxesFramed at h
  rw [passed, h]

/-- From s to q: the read of the axis stored as the record b, its release confirmed or not, and no flight changed. -/
structure ReadStored (n : AxisId) (b : Axis) (s q : State) : Prop where
  own : q.axis n = b ∨ b.state = .releasing ∧ q.axis n = { b with state := .following }
  others : ∀ m, m ≠ n → q.axis m = s.axis m
  frame : AxesFramed s q
  outputs : OutputsTracked s q
  round : RoundKept s q

section
variable {n : AxisId} {b : Axis} {s q v : State} {cause : FaultCause} {x : Turn}

theorem ReadStored.flight (h : ReadStored n b s q) (f : FlightId) : q.flight f = s.flight f := by rw [h.frame]; rfl

theorem ReadStored.pending (h : ReadStored n b s q) : q.pending = s.pending := by rw [h.frame]

theorem ReadStored.bound (h : ReadStored n b s q) : (q.axis n).flight = b.flight := by
  rcases h.own with e | ⟨-, e⟩ <;> rw [e]

theorem ReadStored.released (h : ReadStored n b s q) (released : (q.axis n).released = true) : b.released = true := by
  rcases h.own with e | ⟨state, e⟩
  · rwa [e] at released
  · simp [Axis.released, state]

theorem ReadStored.faulted (h : ReadStored n b s q) (cause : FaultCause) : (q.axis n).faulted cause = b.faulted cause := by
  rcases h.own with e | ⟨-, e⟩ <;> rw [e]
  rfl

theorem ReadStored.live (h : ReadStored n b s q) (live : b.state = .braked ∨ b.state = .releasing ∨ b.state = .following) :
    (q.axis n).state = .braked ∨ (q.axis n).state = .releasing ∨ (q.axis n).state = .following := by
  rcases h.own with e | ⟨-, e⟩ <;> rw [e]
  · exact live
  · exact .inr (.inr rfl)

theorem brakedDown_faulted (a : Axis) (cause : FaultCause) : a.brakedDown.faulted cause = a.faulted cause := by
  unfold Axis.brakedDown; split <;> rfl

/-- A state in which a read's axis fault is met: the checked read, or the trip of the command right behind it (04, R78). -/
structure FaultMet (n : AxisId) (q v : State) : Prop where
  own : v.axis n = q.axis n ∨ v.axis n = (q.axis n).brakedDown
  round : RoundKept q v

theorem FaultMet.live (h : FaultMet n q v)
    (live : (q.axis n).state = .braked ∨ (q.axis n).state = .releasing ∨ (q.axis n).state = .following) :
    (v.axis n).state = .braked ∨ (v.axis n).state = .releasing ∨ (v.axis n).state = .following := by
  rcases h.own with e | e <;> rw [e]
  · exact live
  · exact .inl (brakedDown_state live)

/-- What a failed check leaves behind: the axis FAULTED with the cause, its brake on, FLT asserted, the turn passed (04, R76). -/
theorem read_faulted (h : ReadStored n b s q) (live : b.state = .braked ∨ b.state = .releasing ∨ b.state = .following)
    (met : FaultMet n q v) :
    TurnPassed x s (passTurn x (faultAxis n cause v)) ∧ (passTurn x (faultAxis n cause v)).axis n = b.faulted cause ∧
      (passTurn x (faultAxis n cause v)).brake n = false ∧ (passTurn x (faultAxis n cause v)).faultLine = true := by
  have live := met.live (h.live live)
  have own : (v.axis n).faulted cause = b.faulted cause := by
    rcases met.own with e | e <;> rw [e]
    · exact h.faulted cause
    · rw [brakedDown_faulted, h.faulted]
  refine ⟨(passTurn_passed x _).of_kept ((h.round.trans met.round).trans (faultAxis_roundKept _ _ _)), ?_, ?_⟩
  · rw [passTurn_axis, (faultAxis_axes live).1, own]
  · rw [passTurn_frame]; exact faultAxis_lines live

/-- The state in which the command right behind a failed check runs (04, R78): the axis FAULTED, no flight tripped yet. -/
theorem read_waiting (h : ReadStored n b s q) (live : b.state = .braked ∨ b.state = .releasing ∨ b.state = .following)
    (turn : x.axis = n) :
    (faultWaiting x cause q).axis n = b.faulted cause ∧ (∀ k, k ≠ n → (faultWaiting x cause q).axis k = s.axis k) ∧
      OutputsDriven s (faultWaiting x cause q) ∧ TurnPassed x s (faultWaiting x cause q) ∧
      faultWaiting x cause q =
        { s with axes := (faultWaiting x cause q).axes, exchange := none, turn := (faultWaiting x cause q).turn
                 round := (faultWaiting x cause q).round, roundPending := (faultWaiting x cause q).roundPending
                 brakes := (faultWaiting x cause q).brakes, sounder := (faultWaiting x cause q).sounder
                 faultLine := (faultWaiting x cause q).faultLine } := by
  subst turn
  have driven := putAxis_driven x.axis (fun a => { a with state := .faulted, faultCause := some cause }) q
  have live := h.live live
  unfold faultWaiting
  refine ⟨?_, fun k ne => ?_, ?_, ?_, ?_⟩
  · rw [passTurn_axis, putAxis_axis, if_pos rfl]; exact h.faulted cause
  · rw [passTurn_axis, putAxis_axis, if_neg ne, h.others k ne]
  · refine OutputsDriven.passed ?_ x
    rcases h.outputs with early | kept
    · exact early.again driven id
    · exact kept.driven driven
  · refine (passTurn_passed x _).of_kept (h.round.trans (putAxis_roundKept ?_))
    rcases live with e | e | e <;> simp [e]
  · have faulted : AxesFramed q (putAxis x.axis (fun a => { a with state := .faulted, faultCause := some cause }) q) := rfl
    exact (h.frame.trans faulted).passed x

/-- A failed check trips the axis's flight as it stands, or as the trip of the command right behind the read leaves it (04, R76,
R78). -/
theorem read_faulted_flight (h : ReadStored n b s q) (live : b.state = .braked ∨ b.state = .releasing ∨ b.state = .following)
    (turn : x.axis = n) :
    FaultMet n q (meetTrip x cause q) ∧ ∀ f,
      (b.flight ≠ some f → (faultAxis n cause (meetTrip x cause q)).flight f = s.flight f) ∧
      (b.flight = some f →
        (faultAxis n cause (meetTrip x cause q)).flight f = (s.flight f).afterTrip (.axisFault cause n) ∨
        ∃ other, b.released = true ∧ tripBehind f (faultWaiting x cause q) = some other ∧
          (faultAxis n cause (meetTrip x cause q)).flight f =
            ((s.flight f).afterTrip other).afterTrip (.axisFault cause n)) := by
  subst turn
  have alone (w : State) (axis : w.axis x.axis = q.axis x.axis) (flight : ∀ f, w.flight f = s.flight f) (f : FlightId) :
      (faultAxis x.axis cause w).flight f =
        if b.flight = some f then (s.flight f).afterTrip (.axisFault cause x.axis) else s.flight f := by
    rw [faultAxis_flights (axis ▸ h.live live), axis, h.bound, flight]
  rcases meetTrip_spec x cause q with e | e | ⟨g, other, bound, released, behind, e⟩ <;> rw [e]
  · exact ⟨⟨.inl rfl, .refl q⟩, fun f => ⟨fun ne => (alone q rfl h.flight f).trans (if_neg ne),
      fun own => .inl ((alone q rfl h.flight f).trans (if_pos own))⟩⟩
  · have counted (f : FlightId) : State.flight { q with freeIndex := q.freeIndex + 1 } f = s.flight f := h.flight f
    exact ⟨⟨.inl rfl, fun _ => .rfl, rfl, rfl⟩, fun f => ⟨fun ne => (alone { q with freeIndex := q.freeIndex + 1 } rfl counted f).trans (if_neg ne),
      fun own => .inl ((alone { q with freeIndex := q.freeIndex + 1 } rfl counted f).trans (if_pos own))⟩⟩
  · have met : FaultMet x.axis q (tripFlight g other { q with freeIndex := q.freeIndex + 1 }) := by
      have counted : RoundKept q { q with freeIndex := q.freeIndex + 1 } := ⟨fun _ => .rfl, rfl, rfl⟩
      refine ⟨?_, counted.trans (tripFlight_roundKept _ _ _)⟩
      rw [tripFlight_axis]
      split
      · exact .inr rfl
      · exact .inl rfl
    have axisFlight : ((tripFlight g other { q with freeIndex := q.freeIndex + 1 }).axis x.axis).flight = b.flight := by
      rcases met.own with e | e <;> rw [e]
      · exact h.bound
      · rw [brakedDown_flight, h.bound]
    have own : b.flight = some g := h.bound.symm.trans bound
    refine ⟨met, fun f => ?_⟩
    rw [faultAxis_flights (met.live (h.live live)), axisFlight]
    refine ⟨fun ne => ?_, fun same => ?_⟩
    · rw [if_neg ne, tripFlight_others _ _ _ _ (by rintro rfl; exact ne own)]
      exact h.flight f
    · obtain rfl : g = f := Option.some.inj (own.symm.trans same)
      rw [if_pos same, tripFlight_flight_same]
      refine .inr ⟨other, h.released released, behind, ?_⟩
      show ((q.flight g).afterTrip other).afterTrip _ = _
      rw [h.flight]

end

/-! ### A read that passes -/

theorem tracks_iff (s : State) (n : AxisId) :
    tracks s n = true ↔ ∀ f, (s.axis n).flight = some f → (s.flight f).state = .free ∨ (s.flight f).state = .parked := by
  unfold tracks
  cases (s.axis n).flight <;> simp

theorem confirmArming_axis (n m : AxisId) (s : State) : (confirmArming n s).axis m = s.axis m := by
  rcases confirmArming_cases n s with e | ⟨g, -, -, -, e⟩ <;> rw [e]
  rfl

/-- A confirmed release makes its flight READY with the last member confirmed, and no other (01, R14). -/
theorem confirmArming_flight (n : AxisId) (f : FlightId) (s : State) :
    (confirmArming n s).flight f =
      if (s.axis n).flight = some f ∧ (s.flight f).state = .arming ∧
          ∀ m ∈ (s.flight f).members, (s.axis m).state ≠ .releasing then
        { s.flight f with state := .ready, armTimer := none }
      else s.flight f := by
  unfold confirmArming
  split
  · rename_i unbound
    rw [if_neg]
    simp [unbound]
  · rename_i g bound
    simp only [List.all_eq_true, decide_eq_true_eq, bound, Option.some.injEq]
    by_cases e : g = f
    · subst e
      simp only [true_and]
      split
      · rw [putFlightState_flight_same, State.updFlight_flight_same]
      · rfl
    · have apart : ¬(g = f ∧ (s.flight f).state = .arming ∧ ∀ m ∈ (s.flight f).members, (s.axis m).state ≠ .releasing) :=
        fun h => e h.1
      rw [if_neg apart]
      split
      · rw [putFlightState_others _ _ _ _ (Ne.symm e), State.updFlight_flight_other _ _ (Ne.symm e)]
      · rfl

theorem confirmArming_roundKept (n : AxisId) (s : State) : RoundKept s (confirmArming n s) := by
  rcases confirmArming_cases n s with e | ⟨g, -, -, -, e⟩ <;> rw [e]
  · exact .refl s
  · exact ⟨fun _ => .rfl, rfl, rfl⟩

section
variable {n : AxisId} {pos : Int} {status : Byte} {s : State}

theorem readPassed_axis_other {m : AxisId} (ne : m ≠ n) : (readPassed n pos status s).axis m = s.axis m := by
  unfold readPassed
  split
  case h_4 =>
    split
    · rw [State.updAxis_axis, if_neg ne]
    · rfl
  case h_5 =>
    split
    · rw [confirmArming_axis, putAxis_axis, if_neg ne]
    · rfl
  all_goals rfl

theorem readPassed_braked (state : (s.axis n).state = .braked) :
    (readPassed n pos status s).flights = s.flights ∧
      (readPassed n pos status s).axis n =
        if ∀ f, (s.axis n).flight = some f → (s.flight f).state = .free ∨ (s.flight f).state = .parked then
          { s.axis n with setPoint := pos } else s.axis n := by
  have passed : readPassed n pos status s = if tracks s n then s.updAxis n fun a => { a with setPoint := pos } else s := by
    simp only [readPassed, state]
  rw [passed]
  simp only [← tracks_iff]
  split
  · exact ⟨rfl, State.updAxis_axis_same _ _ _⟩
  · exact ⟨rfl, rfl⟩

theorem readPassed_released (state : (s.axis n).state ≠ .braked) :
    (readPassed n pos status s).axis n =
      if (s.axis n).state = .releasing ∧ status.getLsbD 5 = true then { s.axis n with state := .following } else s.axis n := by
  unfold readPassed
  split
  case h_4 => exact absurd ‹_› state
  case h_5 releasing =>
    by_cases confirmed : status.getLsbD 5 = true
    · rw [if_pos confirmed, if_pos ⟨releasing, confirmed⟩, confirmArming_axis, putAxis_axis_same]
    · rw [if_neg confirmed, if_neg (fun h => confirmed h.2)]
  all_goals simp [*]

theorem readPassed_flight (f : FlightId) :
    (readPassed n pos status s).flight f =
      if ((s.axis n).state = .releasing ∧ status.getLsbD 5 = true) ∧ (s.axis n).flight = some f ∧ (s.flight f).state = .arming ∧
          ∀ m ∈ (s.flight f).members, m ≠ n → (s.axis m).state ≠ .releasing then
        { s.flight f with state := .ready, armTimer := none }
      else s.flight f := by
  have others : (∀ m ∈ (s.flight f).members, ((putAxis n (fun a => { a with state := .following }) s).axis m).state ≠ .releasing) ↔
      ∀ m ∈ (s.flight f).members, m ≠ n → (s.axis m).state ≠ .releasing := by
    refine forall₂_congr fun m _ => ?_
    rw [putAxis_axis]
    by_cases e : m = n
    · subst e; simp
    · simp [e]
  unfold readPassed
  split
  case h_4 => split <;> simp [*]
  case h_5 releasing =>
    by_cases confirmed : status.getLsbD 5 = true
    · rw [if_pos confirmed, confirmArming_flight, putAxis_flight, putAxis_axis_same]
      refine if_congr ?_ rfl rfl
      rw [others]
      simp only [releasing, confirmed, true_and]
    · rw [if_neg confirmed, if_neg (fun h => confirmed h.1.2)]
  all_goals simp [*]

theorem readPassed_roundKept : RoundKept s (readPassed n pos status s) := by
  unfold readPassed
  repeat' split
  case h_5 releasing _ => exact (putAxis_roundKept (by simp [releasing])).trans (confirmArming_roundKept n _)
  case h_4 =>
    refine ⟨fun m => ?_, rfl, rfl⟩
    rw [State.updAxis_axis]
    split <;> exact .rfl
  all_goals exact .refl s

end

/-! ### The whole read -/

theorem storeRead_axis (n m : AxisId) (pos : Int) (status : Byte) (s : State) :
    (storeRead n pos status s).axis m =
      if m = n then { s.axis m with measured := some pos, driveStatus := some status, missedStreak := 0 } else s.axis m :=
  State.updAxis_axis _ _ _ _

/-- A completed read that is stored: the supervision of the stored record, and the turn passed (07, R130). -/
theorem exec_readComplete_stored {e : Exchange} {position : Word} {status : Byte} {s : State} (live : s.resetAsserted = false)
    (running : s.exchange = some e) (kind : e.kind = .read) (kept : e.discarded = false) :
    exec (.readComplete position status (~~~ (wordBytes position ++ [status]).sum)) s =
      .next (passTurn e.turn (supervise e.turn position.toInt status (storeRead e.axis position.toInt status s))) := by
  show execReadComplete _ _ _ _ = _
  simp [execReadComplete, running, live, kind, readArrives, checkByte_eq, kept]

/-- The state in which a read's failed check is met holds the stored read. -/
theorem readChecked_stored (n : AxisId) (pos : Int) (status : Byte) (s : State) :
    ReadStored n { s.axis n with measured := some pos, driveStatus := some status, missedStreak := 0 } s
      (readChecked n status (storeRead n pos status s)) := by
  have own := storeRead_axis n n pos status s
  rw [if_pos rfl] at own
  have others (m : AxisId) (ne : m ≠ n) : (storeRead n pos status s).axis m = s.axis m := by rw [storeRead_axis, if_neg ne]
  have state (m : AxisId) : ((storeRead n pos status s).axis m).state = (s.axis m).state := by
    rw [storeRead_axis]; split <;> rfl
  have stored : StatesKept s (storeRead n pos status s) := ⟨⟨rfl, rfl, rfl⟩, fun _ => rfl, state⟩
  have round : RoundKept s (storeRead n pos status s) := ⟨fun m => by rw [state], rfl, rfl⟩
  unfold readChecked
  split
  · rename_i confirmed
    have releasing : (s.axis n).state = .releasing := (state n).symm.trans confirmed.1
    refine ⟨.inr ⟨releasing, ?_⟩, fun m ne => ?_, rfl, .inl (stored.driven (putAxis_driven _ _ _)),
      round.trans (putAxis_roundKept (by simp [confirmed.1]))⟩
    · rw [putAxis_axis_same, own]
    · rw [putAxis_axis, if_neg ne, others m ne]
  · exact ⟨.inl own, others, rfl, .inr stored, round⟩

/-- A check can fail on a BRAKED, RELEASING or FOLLOWING axis alone. -/
theorem readVerdict_live {a : Axis} {p : AxisParams} {pos : Int} {fault brakeOpen : Bool} {cause : FaultCause}
    (h : readVerdict a p pos fault brakeOpen = some cause) :
    a.state = .braked ∨ a.state = .releasing ∨ a.state = .following := by
  unfold readVerdict at h
  cases state : a.state <;> simp_all

/-- Settles O50. -/
theorem readsAreJudged : Obligations.ReadsAreJudged := by
  intro e p position status s live running kind kept params configured n a verdict stored confirmed lastOne
  refine ⟨_, exec_readComplete_stored live running kind kept, ?_⟩
  have own : (storeRead n position.toInt status s).axis n = stored := (storeRead_axis _ _ _ _ _).trans (if_pos rfl)
  have others (m : AxisId) (ne : m ≠ n) : (storeRead n position.toInt status s).axis m = s.axis m :=
    (storeRead_axis _ _ _ _ _).trans (if_neg ne)
  have judged := supervise_eq (x := e.turn) (pos := position.toInt) (status := status) (p := p)
    (s := storeRead e.axis position.toInt status s) ((congrArg Axis.params own).trans params)
  have same : readVerdict ((storeRead e.axis position.toInt status s).axis e.turn.axis) p position.toInt (status.getLsbD 6)
      (status.getLsbD 5) = verdict := by
    show readVerdict ((storeRead n position.toInt status s).axis n) p _ _ _ = _
    rw [own]
    rfl
  rw [same] at judged
  rw [judged]
  have read := readChecked_stored n position.toInt status s
  cases found : verdict with
  | some cause =>
    have alive : stored.state = .braked ∨ stored.state = .releasing ∨ stored.state = .following := readVerdict_live found
    obtain ⟨met, flights⟩ := read_faulted_flight (x := e.turn) (cause := cause) read alive rfl
    obtain ⟨passed, axis, brake, line⟩ := read_faulted (x := e.turn) (cause := cause) read alive met
    refine ⟨passed, axis, brake, line, fun f => ?_⟩
    have record := passTurn_flight e.turn (faultAxis n cause (meetTrip e.turn cause (readChecked n status
      (storeRead n position.toInt status s)))) f
    refine ⟨fun ne => record.trans ((flights f).1 ne), fun bound => ?_⟩
    rcases (flights f).2 bound with tripped | ⟨other, released, behind, tripped⟩
    · exact .inl (record.trans tripped)
    · obtain ⟨c, rest, u, queue, run, up, down, cause'⟩ := tripBehind_some behind
      obtain ⟨axis, axes, driven, turned, frame⟩ := read_waiting (x := e.turn) (cause := cause) read alive rfl
      have pending : (faultWaiting e.turn cause (readChecked n status (storeRead n position.toInt status s))).pending = s.pending := by
        rw [frame]
      have upright : (s.flight f).state ≠ .tripped := by
        rw [frame] at up; exact up
      exact .inr ⟨c, rest, _, u, other, released, pending.symm.trans queue, axis, axes, driven, turned, frame, run, upright, down,
        cause', record.trans tripped⟩
  | none =>
    have round : RoundKept s (storeRead n position.toInt status s) := by
      refine ⟨fun m => ?_, rfl, rfl⟩
      rw [storeRead_axis]; split <;> exact .rfl
    have flight (f : FlightId) : (storeRead n position.toInt status s).flight f = s.flight f := rfl
    refine ⟨(passTurn_passed _ _).of_kept (round.trans readPassed_roundKept), fun braked => ?_, fun up => ?_, fun m ne => ?_,
      fun f => ?_⟩
    · obtain ⟨flights, axis⟩ := readPassed_braked (n := n) (pos := position.toInt) (status := status)
        (s := storeRead n position.toInt status s) ((congrArg Axis.state own).trans braked)
      rw [own] at axis
      exact ⟨by rw [passTurn_frame]; exact flights, (passTurn_axis _ _ _).trans axis⟩
    · have axis := readPassed_released (n := n) (pos := position.toInt) (status := status)
        (s := storeRead n position.toInt status s) ((congrArg Axis.state own).trans_ne up)
      rw [own] at axis
      exact (passTurn_axis _ _ _).trans axis
    · exact (passTurn_axis _ _ _).trans ((readPassed_axis_other ne).trans (others m ne))
    · have record := readPassed_flight (n := n) (pos := position.toInt) (status := status)
        (s := storeRead n position.toInt status s) f
      have waits : (∀ m ∈ ((storeRead n position.toInt status s).flight f).members, m ≠ n →
          ((storeRead n position.toInt status s).axis m).state ≠ .releasing) ↔
          ∀ m ∈ (s.flight f).members, m ≠ n → (s.axis m).state ≠ .releasing :=
        forall₂_congr fun m _ => forall_congr' fun ne => by rw [others m ne]
      exact (passTurn_flight _ _ _).trans (record.trans (if_congr (by rw [waits, own]; rfl) rfl rfl))

end Sys2Proof.Machine
end

section
namespace Sys2Proof.Machine

/-! ## The step expiry (03, R42 to R44, R62; 06, R117 to R120; 07, R136, R138; 08, R144, R148; 09, R170) -/

/-! ### The work of one flight -/

/-- From s to t: work of one flight at an expiry. It leaves the other flights, the axes of none but its members, the silence counters
and the set of configured axes alone. -/
structure ExpiryWork (f : FlightId) (s t : State) : Prop where
  work : FlightWork f s t
  silence : ∀ u, (t.port u).silence = (s.port u).silence
  members : (t.flight f).members = (s.flight f).members
  axes : ∀ n, n ∉ (s.flight f).members → t.axis n = s.axis n
  configured : ∀ n, (t.axis n).state = .unconfigured ↔ (s.axis n).state = .unconfigured

section
variable {f : FlightId} {s t u : State}

theorem ExpiryWork.refl (f : FlightId) (s : State) : ExpiryWork f s s :=
  ⟨.refl _ _, fun _ => rfl, rfl, fun _ _ => rfl, fun _ => .rfl⟩

theorem ExpiryWork.trans (h : ExpiryWork f s t) (k : ExpiryWork f t u) : ExpiryWork f s u :=
  ⟨h.work.trans k.work, fun u => (k.silence u).trans (h.silence u), k.members.trans h.members,
    fun n hn => (k.axes n (h.members ▸ hn)).trans (h.axes n hn), fun n => (k.configured n).trans (h.configured n)⟩

/-- The members of every flight stay. -/
theorem ExpiryWork.every_members (h : ExpiryWork f s t) (g : FlightId) : (t.flight g).members = (s.flight g).members := by
  by_cases e : g = f
  · subst e; exact h.members
  · rw [h.work.others g e]

theorem updFlight_expiryWork {g : Flight → Flight} (h : (g (s.flight f)).members = (s.flight f).members) :
    ExpiryWork f s (s.updFlight f g) :=
  ⟨updFlight_work _ _ _, fun _ => rfl, by rw [State.updFlight_flight_same, h], fun _ _ => rfl, fun _ => .rfl⟩

theorem raiseFlight_expiryWork (g : FlightId) (x : FlightNotices → FlightNotices) : ExpiryWork f s (raiseFlight g x s) :=
  ⟨raiseFlight_work _ _ _ _, fun u => by simp [raiseFlight], rfl, fun _ _ => rfl, fun _ => .rfl⟩

theorem putFlightState_expiryWork (x : FlightState) : ExpiryWork f s (putFlightState f x s) := by
  refine ⟨putFlightState_work _ _ _, fun u => ?_, by rw [putFlightState_flight_same], fun _ _ => rfl, fun _ => .rfl⟩
  rw [port_congr (putFlightState_ports f x s), raiseState_port]

theorem brakeMembers_expiryWork : ExpiryWork f s (brakeMembers f s) := by
  refine ⟨brakeMembers_work _ _, fun _ => rfl, rfl, fun n hn => ?_, fun n => ?_⟩
  · rw [brakeMembers_axis, if_neg hn]
  · rw [brakeMembers_axis]
    split
    · exact brakedDown_unconfigured _
    · exact .rfl

theorem advance_expiryWork (act : Active) : ExpiryWork f s (advance f act s) := by
  have ropes := advance_ropes f act s
  refine ⟨advance_work _ _ _, fun u => ?_, by rw [advance_flight_same], ropes.others, fun n => by rw [ropes.axis n]⟩
  unfold advance writeSetPoints
  split <;> rfl

theorem rejectStart_expiryWork : ExpiryWork f s (rejectStart f s) := by
  unfold rejectStart
  split
  · exact raiseFlight_expiryWork _ _
  · exact (raiseFlight_expiryWork _ _).trans (putFlightState_expiryWork _)

theorem activate_expiryWork (seg : Segment) (byCue : Bool) : ExpiryWork f s (activate f seg byCue s) := by
  unfold activate
  dsimp only
  split
  · exact ((updFlight_expiryWork rfl).trans (raiseFlight_expiryWork _ _)).trans (putFlightState_expiryWork _)
  · exact (updFlight_expiryWork rfl).trans (putFlightState_expiryWork _)

theorem startHead_expiryWork (byCue : Bool) : ExpiryWork f s (startHead byCue f s).1 := by
  unfold startHead
  split
  · exact .refl _ _
  · dsimp only
    repeat' split
    · exact (updFlight_expiryWork rfl).trans rejectStart_expiryWork
    · exact (updFlight_expiryWork rfl).trans rejectStart_expiryWork
    · exact (updFlight_expiryWork rfl).trans (activate_expiryWork _ _)

theorem followDecision_expiryWork : ExpiryWork f s (followDecision f s) := by
  unfold followDecision
  repeat' split
  · exact putFlightState_expiryWork _
  · exact startHead_expiryWork _
  · exact putFlightState_expiryWork _

theorem closeSegment_expiryWork (act : Active) : ExpiryWork f s (closeSegment f act s) := by
  have copied (u : State) : ExpiryWork f u (recycleCopy f act.seg u) := by
    unfold recycleCopy
    repeat' split
    · exact updFlight_expiryWork rfl
    · exact raiseFlight_expiryWork _ _
    · exact .refl _ _
  exact ((raiseFlight_expiryWork _ _).trans (copied _)).trans (updFlight_expiryWork rfl)

theorem completeMoving_expiryWork (act : Active) : ExpiryWork f s (completeMoving f act s) := by
  unfold completeMoving
  dsimp only
  split
  · exact (closeSegment_expiryWork act).trans followDecision_expiryWork
  · exact ((closeSegment_expiryWork act).trans (updFlight_expiryWork rfl)).trans (putFlightState_expiryWork _)

theorem completeStopping_expiryWork (act : Active) : ExpiryWork f s (completeStopping f act s) := by
  unfold completeStopping
  dsimp only
  split
  · exact (closeSegment_expiryWork act).trans (putFlightState_expiryWork _)
  · exact ((closeSegment_expiryWork act).trans (updFlight_expiryWork rfl)).trans (putFlightState_expiryWork _)

theorem tripFlight_expiryWork (cause : TripCause) : ExpiryWork f s (tripFlight f cause s) := by
  unfold tripFlight
  split
  case h_1 => exact .refl _ _
  case h_2 => exact updFlight_expiryWork rfl
  all_goals exact (brakeMembers_expiryWork.trans (updFlight_expiryWork rfl)).trans (putFlightState_expiryWork _)

theorem pathStep_expiryWork (f : FlightId) (s : State) : ExpiryWork f s (pathStep f s) := by
  unfold pathStep
  split
  case h_1 =>
    split
    · unfold movingStep
      dsimp only
      repeat' split
      · exact completeMoving_expiryWork _
      · exact (advance_expiryWork _).trans (completeMoving_expiryWork _)
      · exact advance_expiryWork _
    · exact .refl _ _
  case h_2 =>
    split
    · unfold stoppingStep
      dsimp only
      repeat' split
      · exact (advance_expiryWork _).trans (completeStopping_expiryWork _)
      · exact (advance_expiryWork _).trans (putFlightState_expiryWork _)
      · exact advance_expiryWork _
    · exact .refl _ _
  case h_3 =>
    split
    · unfold dwellStep
      split
      · exact (updFlight_expiryWork rfl).trans followDecision_expiryWork
      · exact updFlight_expiryWork rfl
    · exact .refl _ _
  case h_4 =>
    split
    · unfold armingStep
      dsimp only
      repeat' split
      · exact (updFlight_expiryWork rfl).trans (tripFlight_expiryWork _)
      · exact updFlight_expiryWork rfl
      · exact updFlight_expiryWork rfl
    · exact .refl _ _
  all_goals exact .refl _ _

theorem restrainFlight_expiryWork (f : FlightId) (cause : HoldCause) (s : State) : ExpiryWork f s (restrainFlight f cause s) := by
  unfold restrainFlight
  split
  case h_1 state =>
    unfold abortArming
    simp only [state]
    exact (brakeMembers_expiryWork.trans (updFlight_expiryWork rfl)).trans (putFlightState_expiryWork _)
  all_goals
    unfold holdFlight
    split
    case h_6 => exact (updFlight_expiryWork rfl).trans (putFlightState_expiryWork _)
    case h_7 => exact (updFlight_expiryWork rfl).trans (putFlightState_expiryWork _)
    case h_8 | h_9 => exact updFlight_expiryWork rfl
    all_goals exact .refl _ _

/-! ### Outputs behind one flight's work -/

theorem pathStep_tracked (f : FlightId) (s : State) : OutputsTracked s (pathStep f s) := by
  have counted (g : Flight → Flight) (h : ∀ r, (g r).state = r.state) : StatesKept s (s.updFlight f g) := updFlight_statesKept s h
  unfold pathStep
  split
  case h_1 => split; exacts [movingStep_tracked _ _ _, .inr (.refl _)]
  case h_2 => split; exacts [stoppingStep_tracked _ _ _, .inr (.refl _)]
  case h_3 =>
    split
    · unfold dwellStep
      split
      · exact endDwell_tracked _ _
      · exact .inr (counted _ fun _ => by rfl)
    · exact .inr (.refl _)
  case h_4 =>
    split
    · unfold armingStep
      dsimp only
      repeat' split
      · exact (counted _ fun _ => by rfl).tracked (tripFlight_tracked _ _ _)
      · exact .inr (counted _ fun _ => by rfl)
      · exact .inr (counted _ fun _ => by rfl)
    · exact .inr (.refl _)
  all_goals exact .inr (.refl _)

theorem holdFlight_tracked (f : FlightId) (cause : HoldCause) (s : State) : OutputsTracked s (holdFlight f cause s) :=
  (holdFlight_flown f cause s).outputs

theorem restrainFlight_tracked (f : FlightId) (cause : HoldCause) (s : State) : OutputsTracked s (restrainFlight f cause s) := by
  unfold restrainFlight
  split
  case h_1 => exact abortArming_tracked _ _ _
  all_goals exact holdFlight_tracked _ _ _

end

/-- What an expiry does to one flight: its path work, with the hold of a claimer that falls silent before or behind it (06, R120;
log entry 7). -/
theorem flightExpiry_cases (late : Station → Bool) (f : FlightId) (s : State) :
    (s.flight f).claim.any late = false ∧ flightExpiry late f s = pathStep f s ∨
      (s.flight f).claim.any late = true ∧ ∃ k,
        (flightExpiry late f s = restrainFlight f .stationSilent (pathStep f { s with freeIndex := k }) ∨
          flightExpiry late f s = pathStep f (restrainFlight f .stationSilent { s with freeIndex := k })) := by
  unfold flightExpiry
  split
  · rename_i silent
    refine .inr ⟨silent, s.freeIndex + 1, ?_⟩
    exact takeInAnyOrder_pair (l := [true, false]) (.refl _)
      (fun path t => if path then pathStep f t else restrainFlight f .stationSilent t) s
  · rename_i heard
    exact .inl ⟨by simpa using heard, rfl⟩

/-! ### What the flights' work leaves of the rest -/

/-- A step expiry's work on flights leaves a flight that is TRIPPED as it is. -/
theorem pathStep_tripped {f : FlightId} {s : State} (tripped : (s.flight f).state = .tripped) : pathStep f s = s := by
  simp only [pathStep, tripped]

theorem restrainFlight_tripped {f : FlightId} {cause : HoldCause} {s : State} (tripped : (s.flight f).state = .tripped) :
    restrainFlight f cause s = s := by
  simp only [restrainFlight, holdFlight, tripped]

/-- From s to t the flights have been worked on and nothing else, but for the notices, the axes and the outputs that go with it and
for the free choices made; a phase of PULSED stands while a flight is TRIPPED. -/
structure FlightsWorked (s t : State) : Prop where
  rest : OnlyMotionChanged { s with freeIndex := t.freeIndex } t
  silence : ∀ u, (t.port u).silence = (s.port u).silence
  configured : ∀ n, (t.axis n).state = .unconfigured ↔ (s.axis n).state = .unconfigured
  phase : ∀ sounding count f, s.sounder = .pulsed sounding count → (s.flight f).state = .tripped →
    t.sounder = .pulsed sounding count ∧ (t.flight f).state = .tripped

section
variable {s t u : State}

theorem FlightsWorked.refl (s : State) : FlightsWorked s s := ⟨rfl, fun _ => rfl, fun _ => .rfl, fun _ _ _ h k => ⟨h, k⟩⟩

theorem FlightsWorked.trans (h : FlightsWorked s t) (k : FlightsWorked t u) : FlightsWorked s u := by
  refine ⟨?_, fun v => (k.silence v).trans (h.silence v), fun n => (k.configured n).trans (h.configured n),
    fun sounding count f pulsed tripped => ?_⟩
  · have first := h.rest
    have then_ := k.rest
    unfold OnlyMotionChanged at *
    rw [then_, first]
  · obtain ⟨pulsed, tripped⟩ := h.phase sounding count f pulsed tripped
    exact k.phase sounding count f pulsed tripped

theorem freeIndex_flightsWorked (k : Nat) (s : State) : FlightsWorked s { s with freeIndex := k } :=
  ⟨rfl, fun _ => rfl, fun _ => .rfl, fun _ _ _ h k => ⟨h, k⟩⟩

theorem ExpiryWork.flightsWorked {f : FlightId} (h : ExpiryWork f s t) (outputs : OutputsTracked s t)
    (stays : (s.flight f).state = .tripped → t = s) : FlightsWorked s t := by
  refine ⟨?_, h.silence, h.configured, fun sounding count g pulsed tripped => ?_⟩
  · have motion := h.work.motion
    unfold OnlyMotionChanged at *
    rw [motion]
  · have still : (t.flight g).state = .tripped := by
      by_cases e : g = f
      · subst e; rw [stays tripped]; exact tripped
      · rw [h.work.others g e]; exact tripped
    refine ⟨?_, still⟩
    rcases outputs with ⟨-, sounder, -⟩ | kept
    · rw [sounder, (anyTripped_iff t).mpr ⟨g, still⟩, pulsed]; rfl
    · rw [kept.outputs.2.1, pulsed]

end

theorem pathStep_flightsWorked (f : FlightId) (s : State) : FlightsWorked s (pathStep f s) :=
  (pathStep_expiryWork f s).flightsWorked (pathStep_tracked f s) pathStep_tripped

theorem restrainFlight_flightsWorked (f : FlightId) (cause : HoldCause) (s : State) :
    FlightsWorked s (restrainFlight f cause s) :=
  (restrainFlight_expiryWork f cause s).flightsWorked (restrainFlight_tracked f cause s) restrainFlight_tripped

theorem flightExpiry_flightsWorked (late : Station → Bool) (f : FlightId) (s : State) :
    FlightsWorked s (flightExpiry late f s) := by
  rcases flightExpiry_cases late f s with ⟨-, e⟩ | ⟨-, k, e | e⟩ <;> rw [e]
  · exact pathStep_flightsWorked f s
  · exact ((freeIndex_flightsWorked k s).trans (pathStep_flightsWorked f _)).trans (restrainFlight_flightsWorked f _ _)
  · exact ((freeIndex_flightsWorked k s).trans (restrainFlight_flightsWorked f _ _)).trans (pathStep_flightsWorked f _)

theorem flightExpiries_worked (late : Station → Bool) (l : List FlightId) (s : State) :
    FlightsWorked s (l.foldl (fun t f => flightExpiry late f t) s) := by
  induction l generalizing s with
  | nil => exact .refl s
  | cons f l ih => exact (flightExpiry_flightsWorked late f s).trans (ih _)

/-! ### The silence counters (06, R117) -/

/-- From s to t the silence counters have counted and nothing else has changed. -/
def SilenceCounted (s t : State) : Prop := t = { s with ports := t.ports, silents := t.silents }

theorem SilenceCounted.trans {s t u : State} (h : SilenceCounted s t) (k : SilenceCounted t u) : SilenceCounted s u := by
  unfold SilenceCounted at *
  rw [k, h]

theorem countSilence_counted (st : Station) (s : State) : SilenceCounted s (countSilence st s) := by
  unfold countSilence
  repeat' split
  all_goals rfl

theorem countSilence_other {st u : Station} (ne : u ≠ st) (s : State) :
    (countSilence st s).port u = s.port u ∧ (countSilence st s).silents.get u = s.silents.get u := by
  unfold countSilence
  repeat' split
  · exact ⟨rfl, rfl⟩
  · simp [State.updPort_port, State.setSilent_get, ne]
  · simp [State.updPort_port, ne]

theorem turnsSilent_iff (s : State) (st : Station) :
    turnsSilent s st = true ↔ s.silents.get st = false ∧ 249 ≤ (s.port st).silence := by
  simp [turnsSilent, silenceSteps]

/-- What an expiry makes of a station's silence counter: nothing of a SILENT one's, and SILENT at 250 (06, R117). -/
structure StationCounted (st : Station) (s t : State) : Prop where
  silent : s.silents.get st = true → (t.port st).silence = (s.port st).silence ∧ t.silents.get st = true
  counts : s.silents.get st = false → (s.port st).silence < 249 →
    (t.port st).silence = (s.port st).silence + 1 ∧ t.silents.get st = false
  falls : s.silents.get st = false → 249 ≤ (s.port st).silence → (t.port st).silence = 250 ∧ t.silents.get st = true

theorem countSilence_same (st : Station) (s : State) : StationCounted st s (countSilence st s) := by
  unfold countSilence
  split
  · rename_i silent
    exact ⟨fun _ => ⟨rfl, silent⟩, by simp [silent], by simp [silent]⟩
  · rename_i active
    split
    · rename_i falls
      have falls := ((turnsSilent_iff s st).mp falls).2
      exact ⟨fun h => absurd h active, fun _ h => by omega, fun _ _ => by simp [silenceSteps]⟩
    · rename_i counts
      rw [turnsSilent_iff] at counts
      simp only [Bool.not_eq_true] at active
      exact ⟨by simp [active], fun _ _ => by simp [active], fun _ h => absurd ⟨active, h⟩ counts⟩

/-- A list without repeats before and behind one of its entries. -/
theorem split_at_mem {α : Type} {l : List α} {a : α} (nodup : l.Nodup) (mem : a ∈ l) :
    ∃ pre post, l = pre ++ a :: post ∧ a ∉ pre ∧ a ∉ post := by
  obtain ⟨pre, post, rfl⟩ := List.append_of_mem mem
  obtain ⟨-, behind, apart⟩ := List.nodup_append.mp nodup
  exact ⟨pre, post, rfl, fun h => apart a h a List.mem_cons_self rfl, (List.nodup_cons.mp behind).1⟩

theorem countSilences_other {u : Station} (l : List Station) (ne : u ∉ l) (s : State) :
    (l.foldl (fun t st => countSilence st t) s).port u = s.port u ∧
      (l.foldl (fun t st => countSilence st t) s).silents.get u = s.silents.get u := by
  induction l generalizing s with
  | nil => exact ⟨rfl, rfl⟩
  | cons st l ih =>
    obtain ⟨head, tail⟩ := not_or.mp (fun h => ne (List.mem_cons.mpr h))
    obtain ⟨port, silent⟩ := ih tail (countSilence st s)
    obtain ⟨port', silent'⟩ := countSilence_other head s
    exact ⟨port.trans port', silent.trans silent'⟩

theorem countSilences_counted (l : List Station) (s : State) : SilenceCounted s (l.foldl (fun t st => countSilence st t) s) := by
  induction l generalizing s with
  | nil => exact rfl
  | cons st l ih => exact (countSilence_counted st s).trans (ih _)

theorem allStations_nodup : allStations.Nodup := by decide

theorem countSilences_same (st : Station) (s : State) :
    StationCounted st s (allStations.foldl (fun t st => countSilence st t) s) := by
  obtain ⟨pre, post, split, before, behind⟩ := split_at_mem allStations_nodup (mem_allStations st)
  rw [split, List.foldl_append, List.foldl_cons]
  obtain ⟨port, silent⟩ := countSilences_other pre before s
  obtain ⟨port', silent'⟩ := countSilences_other post behind (countSilence st (pre.foldl (fun t st => countSilence st t) s))
  obtain ⟨a, b, c⟩ := countSilence_same st (pre.foldl (fun t st => countSilence st t) s)
  rw [port, silent] at a b c
  exact ⟨by rw [port', silent']; exact a, by rw [port', silent']; exact b, by rw [port', silent']; exact c⟩

/-! ### The parts of a step expiry -/

/-- The state in which a step expiry works on the flights: the counters of the step, the phase and the stations counted. -/
def counted (s : State) : State :=
  allStations.foldl (fun t st => countSilence st t) { s with stepCounter := s.stepCounter + 1, sounder := s.sounder.tick }

/-- The state behind a step expiry's work on the flights. -/
def flown (s : State) : State := allFlights.foldl (fun t f => flightExpiry (turnsSilent s) f t) (counted s)

theorem stepAll_eq (s : State) : stepAll s = scannerStep (roundStep (flown s)) := rfl

theorem counted_frame (s : State) :
    counted s = { s with stepCounter := s.stepCounter + 1, sounder := s.sounder.tick, ports := (counted s).ports
                         silents := (counted s).silents } := countSilences_counted _ _

theorem flown_worked (s : State) : FlightsWorked (counted s) (flown s) := flightExpiries_worked _ _ _

theorem counted_station (st : Station) (s : State) : StationCounted st s (counted s) := by
  obtain ⟨a, b, c⟩ := countSilences_same st { s with stepCounter := s.stepCounter + 1, sounder := s.sounder.tick }
  exact ⟨a, b, c⟩

theorem scannerStep_frame (s : State) :
    scannerStep s = { s with scanState := (scannerStep s).scanState, scanMode := (scannerStep s).scanMode } := by
  unfold scannerStep beginScan
  repeat' split
  all_goals rfl

theorem roundStep_frame (s : State) :
    roundStep s = { s with round := (roundStep s).round, roundPending := (roundStep s).roundPending
                           turn := (roundStep s).turn } := by
  unfold roundStep beginRound
  repeat' split
  all_goals rfl

/-- A round that runs is followed by another; an IDLE round begins with the lowest-numbered configured axis (07, R136, R138). -/
theorem roundStep_round (s : State) :
    (s.round = .running → (roundStep s).round = .running ∧ (roundStep s).roundPending = true ∧ (roundStep s).turn = s.turn) ∧
      (s.round = .idle → (roundStep s).roundPending = s.roundPending ∧
        (∀ n, (s.axis n).state ≠ .unconfigured → (∀ k, k < n → (s.axis k).state = .unconfigured) →
          (roundStep s).round = .running ∧ (roundStep s).turn = some { axis := n, kind := .write }) ∧
        ((∀ n, (s.axis n).state = .unconfigured) → (roundStep s).round = .idle ∧ (roundStep s).turn = none)) := by
  refine ⟨fun running => ?_, fun idle => ?_⟩
  · simp [roundStep, running]
  · have begins : roundStep s = beginRound s := by simp [roundStep, idle]
    rw [begins]
    refine ⟨?_, fun n configured first => ?_, fun none => ?_⟩
    · unfold beginRound; split <;> rfl
    · have found := configuredFrom_some (k := 0) (Nat.zero_le _) configured fun j _ lt => first j lt
      simp [beginRound, found]
    · have found := configuredFrom_none (k := 0) fun m _ => none m
      simp [beginRound, found]

/-- A WAITING scanner begins a scan; any other stays (08, R144, R146, R148). -/
theorem scannerStep_scanner (s : State) :
    (s.scanState ≠ .waiting → (scannerStep s).scanState = s.scanState ∧ (scannerStep s).scanMode = s.scanMode) ∧
      (s.scanState = .waiting → s.scanMode = .step → (scannerStep s).scanMode = .step ∧
        (scannerStep s).scanState = if (s.slot 0).enabled then .scanning 0 else .waiting) := by
  refine ⟨fun away => ?_, fun waiting mode => ?_⟩
  · unfold scannerStep
    split
    · exact absurd ‹_› away
    all_goals exact ⟨rfl, rfl⟩
  · simp only [scannerStep, waiting, beginScan, mode]
    split <;> simp

section
variable (s : State)

theorem flown_stepCounter : (flown s).stepCounter = s.stepCounter + 1 :=
  (flown_worked s).rest.stepCounter.trans (by rw [counted_frame])

theorem flown_round : (flown s).round = s.round := (flown_worked s).rest.round.trans (by rw [counted_frame])

theorem flown_roundPending : (flown s).roundPending = s.roundPending :=
  (flown_worked s).rest.roundPending.trans (by rw [counted_frame])

theorem flown_turn : (flown s).turn = s.turn := (flown_worked s).rest.turn.trans (by rw [counted_frame])

theorem flown_exchange : (flown s).exchange = s.exchange := (flown_worked s).rest.exchange.trans (by rw [counted_frame])

theorem flown_scanState : (flown s).scanState = s.scanState := (flown_worked s).rest.scanState.trans (by rw [counted_frame])

theorem flown_scanMode : (flown s).scanMode = s.scanMode := (flown_worked s).rest.scanMode.trans (by rw [counted_frame])

theorem flown_slots : (flown s).slots = s.slots := (flown_worked s).rest.slots.trans (by rw [counted_frame])

theorem counted_axis (n : AxisId) : (counted s).axis n = s.axis n := by rw [counted_frame]; rfl

theorem counted_flight (f : FlightId) : (counted s).flight f = s.flight f := by rw [counted_frame]; rfl

theorem flown_configured (n : AxisId) : ((flown s).axis n).state = .unconfigured ↔ (s.axis n).state = .unconfigured := by
  rw [(flown_worked s).configured n, counted_axis]

theorem flown_station (st : Station) : StationCounted st s (flown s) := by
  have silence := (flown_worked s).silence st
  have silents : (flown s).silents = (counted s).silents := (flown_worked s).rest.silents
  obtain ⟨a, b, c⟩ := counted_station st s
  exact ⟨by rw [silence, silents]; exact a, by rw [silence, silents]; exact b, by rw [silence, silents]; exact c⟩

end

/-- What a step expiry does beside the flights. -/
theorem stepAll_rest (s : State) :
    (stepAll s).stepCounter = s.stepCounter + 1 ∧ (∀ st, StationCounted st s (stepAll s)) ∧ (stepAll s).exchange = s.exchange ∧
      (s.round = .running → (stepAll s).round = .running ∧ (stepAll s).roundPending = true ∧ (stepAll s).turn = s.turn) ∧
      (s.round = .idle → (stepAll s).roundPending = s.roundPending ∧
        (∀ n, (s.axis n).state ≠ .unconfigured → (∀ k, k < n → (s.axis k).state = .unconfigured) →
          (stepAll s).round = .running ∧ (stepAll s).turn = some { axis := n, kind := .write }) ∧
        ((∀ n, (s.axis n).state = .unconfigured) → (stepAll s).round = .idle ∧ (stepAll s).turn = none)) ∧
      (s.scanState ≠ .waiting → (stepAll s).scanState = s.scanState ∧ (stepAll s).scanMode = s.scanMode) ∧
      (s.scanState = .waiting → s.scanMode = .step → (stepAll s).scanMode = .step ∧
        (stepAll s).scanState = if (s.slot 0).enabled then .scanning 0 else .waiting) ∧
      ∀ sounding count, s.sounder = .pulsed sounding count → (∃ f, (s.flight f).state = .tripped) →
        (stepAll s).sounder = if 125 ≤ count + 1 then .pulsed (!sounding) 0 else .pulsed sounding (count + 1) := by
  have sounds (sounding : Bool) (count : Nat) (pulsed : s.sounder = .pulsed sounding count)
      (tripped : ∃ f, (s.flight f).state = .tripped) :
      (flown s).sounder = if 125 ≤ count + 1 then .pulsed (!sounding) 0 else .pulsed sounding (count + 1) := by
    obtain ⟨f, tripped⟩ := tripped
    have ticked : (counted s).sounder = if 125 ≤ count + 1 then .pulsed (!sounding) 0 else .pulsed sounding (count + 1) := by
      rw [counted_frame]
      show s.sounder.tick = _
      rw [pulsed]; rfl
    have still : ((counted s).flight f).state = .tripped := by rw [counted_flight]; exact tripped
    have kept := (flown_worked s).phase
    split at ticked
    · rename_i due; rw [if_pos due]; exact (kept _ _ f ticked still).1
    · rename_i early; rw [if_neg early]; exact (kept _ _ f ticked still).1
  have turned := roundStep_round (flown s)
  simp only [flown_round, flown_roundPending, flown_turn, flown_configured, ne_eq] at turned
  have counter := flown_stepCounter s
  have stations := flown_station s
  have exchange := flown_exchange s
  have slots := flown_slots s
  have state := flown_scanState s
  have mode := flown_scanMode s
  rw [stepAll_eq]
  generalize flown s = v at sounds turned counter stations exchange slots state mode
  have scan := scannerStep_frame (roundStep v)
  have round := roundStep_frame v
  have scanned := scannerStep_scanner (roundStep v)
  have slot : (roundStep v).slot 0 = s.slot 0 := by rw [round]; simp [State.slot, slots]
  have state : (roundStep v).scanState = s.scanState := by rw [round]; exact state
  have mode : (roundStep v).scanMode = s.scanMode := by rw [round]; exact mode
  rw [slot, state, mode] at scanned
  refine ⟨?_, fun st => ?_, ?_, fun running => ?_, fun idle => ?_, scanned.1, scanned.2, fun sounding count pulsed tripped => ?_⟩
  · rw [scan, round]; exact counter
  · obtain ⟨silent, counts, falls⟩ := stations st
    rw [scan, round]; exact ⟨silent, counts, falls⟩
  · rw [scan, round]; exact exchange
  · rw [scan]; exact turned.1 running
  · rw [scan]; exact turned.2 idle
  · rw [scan, round]; exact sounds sounding count pulsed tripped

end Sys2Proof.Machine
end

section
namespace Sys2Proof.Machine

/-! ## One flight at a step expiry (01, R15, R16; 02, R38, R39; 03, R43, R62; 05, R86, R89; 06, R118, R120) -/

/-! ### The other flights leave a flight's record, its members and the slots alone -/

/-- From s to t the flight's record, its members' records and the slots stay, and every flight's members. -/
structure FlightStands (f : FlightId) (s t : State) : Prop where
  flight : t.flight f = s.flight f
  axes : ∀ n ∈ (s.flight f).members, t.axis n = s.axis n
  slots : t.slots = s.slots
  members : ∀ g, (t.flight g).members = (s.flight g).members

section
variable {f : FlightId} {s t u : State}

theorem FlightStands.refl (f : FlightId) (s : State) : FlightStands f s s := ⟨rfl, fun _ _ => rfl, rfl, fun _ => rfl⟩

theorem FlightStands.trans (h : FlightStands f s t) (k : FlightStands f t u) : FlightStands f s u :=
  ⟨k.flight.trans h.flight, fun n hn => (k.axes n (h.members f ▸ hn)).trans (h.axes n hn), k.slots.trans h.slots,
    fun g => (k.members g).trans (h.members g)⟩

theorem FlightStands.memberAxes (h : FlightStands f s t) : t.memberAxes f = (s.flight f).members.map s.axis := by
  rw [State.memberAxes, h.flight]
  exact List.map_congr_left h.axes

theorem ExpiryWork.stands {g : FlightId} (h : ExpiryWork g s t) (ne : g ≠ f)
    (apart : ∀ n ∈ (s.flight f).members, n ∉ (s.flight g).members) : FlightStands f s t :=
  ⟨h.work.others f (Ne.symm ne), fun n hn => h.axes n (apart n hn), h.work.motion.slots, h.every_members⟩

theorem freeIndex_stands (k : Nat) : FlightStands f s { s with freeIndex := k } := ⟨rfl, fun _ _ => rfl, rfl, fun _ => rfl⟩

theorem flightExpiry_stands {late : Station → Bool} {g : FlightId} (ne : g ≠ f)
    (apart : ∀ n ∈ (s.flight f).members, n ∉ (s.flight g).members) : FlightStands f s (flightExpiry late g s) := by
  rcases flightExpiry_cases late g s with ⟨-, e⟩ | ⟨-, k, e | e⟩ <;> rw [e]
  · exact (pathStep_expiryWork g s).stands ne apart
  · exact (freeIndex_stands k).trans
      (((pathStep_expiryWork g _).trans (restrainFlight_expiryWork g _ _)).stands ne apart)
  · exact (freeIndex_stands k).trans
      (((restrainFlight_expiryWork g _ _).trans (pathStep_expiryWork g _)).stands ne apart)

theorem flightExpiries_stand {late : Station → Bool} (l : List FlightId) (out : f ∉ l) (apart : MembersUnshared f s) :
    FlightStands f s (l.foldl (fun t g => flightExpiry late g t) s) := by
  induction l generalizing s with
  | nil => exact .refl f s
  | cons g l ih =>
    obtain ⟨head, tail⟩ := not_or.mp (fun h => out (List.mem_cons.mpr h))
    have first : FlightStands f s (flightExpiry late g s) :=
      flightExpiry_stands (Ne.symm head) fun n hn => apart n hn g (Ne.symm head)
    refine first.trans (ih tail fun n hn h ne => ?_)
    rw [first.members h]
    exact apart n (first.members f ▸ hn) h ne

theorem RigSound.unshared (rig : RigSound s) (f : FlightId) : MembersUnshared f s := fun n hn g ne hg => by
  have own := (rig.bound f n).mp hn
  have other := (rig.bound g n).mp hg
  exact ne (Option.some.inj (other.symm.trans own))

theorem counted_stands (f : FlightId) (s : State) : FlightStands f s (counted s) := by
  have slots : (counted s).slots = s.slots := by rw [counted_frame]
  exact ⟨counted_flight s f, fun n _ => counted_axis s n, slots, fun g => by rw [counted_flight]⟩

/-- The round and the scanner leave the flights, the axes and the slots alone. -/
theorem round_and_scan_stand (f : FlightId) (s : State) : FlightStands f s (scannerStep (roundStep s)) := by
  rw [scannerStep_frame, roundStep_frame]
  exact ⟨rfl, fun _ _ => rfl, rfl, fun _ => rfl⟩

theorem flightExpiry_members (late : Station → Bool) (f g : FlightId) (s : State) :
    ((flightExpiry late f s).flight g).members = (s.flight g).members := by
  rcases flightExpiry_cases late f s with ⟨-, e⟩ | ⟨-, k, e | e⟩ <;> rw [e]
  · exact (pathStep_expiryWork f s).every_members g
  · exact ((pathStep_expiryWork f _).trans (restrainFlight_expiryWork f _ _)).every_members g
  · exact ((restrainFlight_expiryWork f _ _).trans (pathStep_expiryWork f _)).every_members g

/-- The flights' work at an expiry is, for one flight, its own expiry between those of the others (06, R120). -/
theorem flightExpiries_flight {late : Station → Bool} (f : FlightId) (apart : MembersUnshared f s) :
    ∃ u, FlightStands f s u ∧
      FlightStands f (flightExpiry late f u) (allFlights.foldl (fun t g => flightExpiry late g t) s) := by
  obtain ⟨pre, post, split, before, behind⟩ := split_at_mem allFlights_nodup (mem_allFlights f)
  have first := flightExpiries_stand (late := late) pre before apart
  rw [split, List.foldl_append, List.foldl_cons]
  refine ⟨_, first, flightExpiries_stand post behind ?_⟩
  generalize pre.foldl (fun t g => flightExpiry late g t) s = u at first
  intro n hn g ne
  rw [flightExpiry_members, first.members] at hn ⊢
  exact apart n hn g ne

theorem stepAll_flight (rig : RigSound s) (f : FlightId) :
    ∃ u, FlightStands f s u ∧ FlightStands f (flightExpiry (turnsSilent s) f u) (stepAll s) := by
  have counts := counted_stands f s
  have whole := stepAll_eq s
  unfold flown at whole
  generalize counted s = c at counts whole
  have apart : MembersUnshared f c := fun n hn g ne => by
    rw [counts.members] at hn ⊢
    exact rig.unshared f n hn g ne
  obtain ⟨u, first, last⟩ := flightExpiries_flight (late := turnsSilent s) f apart
  rw [whole]
  exact ⟨u, counts.trans first, last.trans (round_and_scan_stand f _)⟩

/-- Whether the claimer of a flight falls SILENT at the expiry. -/
theorem claim_any_turnsSilent (s : State) (f : FlightId) :
    (s.flight f).claim.any (turnsSilent s) = true ↔
      ∃ st, (s.flight f).claim = some st ∧ s.silents.get st = false ∧ 249 ≤ (s.port st).silence := by
  simp only [Option.any_eq_true, turnsSilent_iff]

/-- Where the claimer does not fall SILENT, an expiry does a flight's path work alone. -/
theorem stepAll_heard (rig : RigSound s) {f : FlightId}
    (heard : ∀ st, (s.flight f).claim = some st → s.silents.get st = true ∨ (s.port st).silence < 249) :
    ∃ u, FlightStands f s u ∧ FlightStands f (pathStep f u) (stepAll s) := by
  obtain ⟨u, before, behind⟩ := stepAll_flight rig f
  refine ⟨u, before, ?_⟩
  rcases flightExpiry_cases (turnsSilent s) f u with ⟨-, e⟩ | ⟨late, -⟩
  · rw [← e]; exact behind
  · rw [before.flight, claim_any_turnsSilent] at late
    obtain ⟨st, claim, active, due⟩ := late
    rcases heard st claim with silent | early
    · simp [silent] at active
    · omega

/-- Where the claimer falls SILENT, an expiry does the flight's path work and its restraint in either order (06, R120; log entry 7). -/
theorem stepAll_late (rig : RigSound s) {f : FlightId} {st : Station} (claim : (s.flight f).claim = some st)
    (active : s.silents.get st = false) (due : 249 ≤ (s.port st).silence) :
    ∃ u, FlightStands f s u ∧
      (FlightStands f (restrainFlight f .stationSilent (pathStep f u)) (stepAll s) ∨
        FlightStands f (pathStep f (restrainFlight f .stationSilent u)) (stepAll s)) := by
  obtain ⟨u, before, behind⟩ := stepAll_flight rig f
  rcases flightExpiry_cases (turnsSilent s) f u with ⟨heard, -⟩ | ⟨-, k, orders⟩
  · rw [before.flight, (claim_any_turnsSilent s f).mpr ⟨st, claim, active, due⟩] at heard
    cases heard
  · refine ⟨{ u with freeIndex := k }, before.trans (freeIndex_stands k), ?_⟩
    rcases orders with e | e <;> rw [← e]
    · exact .inl behind
    · exact .inr behind

end

end Sys2Proof.Machine
end

section
namespace Sys2Proof.Machine

/-! ## A flight's path work at a step expiry, by its state (01, R15; 02, R38, R39; 03, R53 to R59) -/

/-! ### The checks of a start -/

section
variable {f : FlightId} {s t u : State} {seg : Segment}

/-- The checks of a start read the members' parameters, the load window and the slots alone. -/
theorem startFits_congr (members : (t.flight f).members = (s.flight f).members)
    (window : (t.flight f).loadMin = (s.flight f).loadMin ∧ (t.flight f).loadMax = (s.flight f).loadMax)
    (slots : t.slots = s.slots) (params : ∀ n ∈ (s.flight f).members, (t.axis n).params = (s.axis n).params) :
    StartFits t f seg ↔ StartFits s f seg := by
  have slot (k : SlotId) : t.slot k = s.slot k := by simp [State.slot, slots]
  have targets : TargetsFit t f seg ↔ TargetsFit s f seg := by
    unfold TargetsFit
    rw [members]
    refine forall₄_congr fun i n x hn => ?_
    rw [params n (List.mem_of_getElem? hn)]
  have loads : LoadsFit t f ↔ LoadsFit s f := by
    unfold LoadsFit
    rw [members, window.1, window.2]
    refine forall₂_congr fun n hn => ?_
    simp only [params n hn, slot]
  rw [StartFits, StartFits, targets, loads]

theorem FlightStands.startFits (h : FlightStands f s t) : StartFits t f seg ↔ StartFits s f seg :=
  startFits_congr (h.members f) (by rw [h.flight]; exact ⟨rfl, rfl⟩) h.slots fun n hn => by rw [h.axes n hn]

/-! ### The follow decision and the end of a dwell -/

/-- What the follow decision makes of its flight's record. -/
theorem followDecision_flight (f : FlightId) (s : State) :
    ((∀ seg rest, (s.flight f).queue = seg :: rest → seg.start ≠ .follow) →
      (followDecision f s).flight f = { s.flight f with state := .ready }) ∧
    ∀ seg rest, (s.flight f).queue = seg :: rest → seg.start = .follow →
      (StartFits s f seg → (followDecision f s).flight f =
        (s.flight f).started rest (activeOf (s.memberAxes f) (s.flight f).holdDecel seg false)) ∧
      (¬StartFits s f seg → (followDecision f s).flight f = (s.flight f).rejected rest) := by
  refine ⟨fun none => ?_, fun seg rest queue follow => ?_⟩
  · rw [followDecision_ready none, putFlightState_flight_same]
  · rw [followDecision_start queue follow]
    exact ⟨startHead_flight_fits queue, startHead_flight_unfit queue⟩

theorem endDwell_ended (f : FlightId) (s : State) : DwellEnded f s ((endDwell f s).flight f) := by
  have decided := followDecision_flight f (s.updFlight f fun r => { r with dwell := none })
  have axes : (s.updFlight f fun r => { r with dwell := none }).memberAxes f = s.memberAxes f :=
    memberAxes_congr (by rw [State.updFlight_flight_same]) rfl
  have fits (seg : Segment) : StartFits (s.updFlight f fun r => { r with dwell := none }) f seg ↔ StartFits s f seg :=
    startFits_congr (by rw [State.updFlight_flight_same]) (by rw [State.updFlight_flight_same]; exact ⟨rfl, rfl⟩) rfl
      fun _ _ => rfl
  simp only [State.updFlight_flight_same, axes, fits] at decided
  exact decided

theorem DwellEnded.before {r : Flight} (h : FlightStands f s u) (ended : DwellEnded f u r) : DwellEnded f s r := by
  have axes : (u.flight f).members.map u.axis = (s.flight f).members.map s.axis := h.memberAxes
  have fits (seg : Segment) : (TargetsFit u f seg ∧ (seg.loadCheck = true → LoadsFit u f)) ↔
      (TargetsFit s f seg ∧ (seg.loadCheck = true → LoadsFit s f)) := h.startFits
  unfold DwellEnded at ended ⊢
  simp only [axes, fits] at ended
  rw [h.flight] at ended
  exact ended

/-- The record behind a dwell is READY or MOVING. -/
theorem DwellEnded.state {r : Flight} (ended : DwellEnded f s r) : r.state = .ready ∨ r.state = .moving := by
  by_cases follows : ∃ seg rest, (s.flight f).queue = seg :: rest ∧ seg.start = .follow
  · obtain ⟨seg, rest, queue, follow⟩ := follows
    obtain ⟨fit, unfit⟩ := ended.2 seg rest queue follow
    by_cases passes : TargetsFit s f seg ∧ (seg.loadCheck = true → LoadsFit s f)
    · exact .inr (by rw [fit passes])
    · exact .inl (by rw [unfit passes])
  · exact .inl (by rw [ended.1 fun seg rest queue follow => follows ⟨seg, rest, queue, follow⟩])

/-! ### DWELL, ARMING and the states at rest -/

theorem pathStep_dwell_ends {d : Nat} (state : (s.flight f).state = .dwell) (dwell : (s.flight f).dwell = some d)
    (due : d ≤ 1) : DwellEnded f s ((pathStep f s).flight f) := by
  simp only [pathStep, state, dwell, dwellStep, if_pos due]
  exact endDwell_ended f s

theorem pathStep_dwell_counts {d : Nat} (state : (s.flight f).state = .dwell) (dwell : (s.flight f).dwell = some d)
    (early : 1 < d) : (pathStep f s).flight f = { s.flight f with dwell := some (d - 1) } := by
  simp only [pathStep, state, dwell, dwellStep, if_neg (Nat.not_le.mpr early), State.updFlight_flight_same]

theorem pathStep_arming_counts {k : Nat} (state : (s.flight f).state = .arming) (timer : (s.flight f).armTimer = some k)
    (early : 1 < k) : (pathStep f s).flight f = { s.flight f with armTimer := some (k - 1) } := by
  simp only [pathStep, state, timer, armingStep, if_neg (Nat.not_le.mpr early), State.updFlight_flight_same]

theorem firstReleasing_eq {before after : List AxisId} {n : AxisId} (members : (s.flight f).members = before ++ n :: after)
    (releasing : (s.axis n).state = .releasing) (first : ∀ m ∈ before, (s.axis m).state ≠ .releasing) :
    firstReleasing f s = some n := by
  rw [firstReleasing, members, List.find?_append, List.find?_eq_none.mpr (by simpa using first)]
  simp [releasing]

/-- An arming timer that runs out with a member RELEASING trips the flight (01, R15; 05, R95). -/
theorem pathStep_arming_trips {k : Nat} {n : AxisId} (state : (s.flight f).state = .arming)
    (timer : (s.flight f).armTimer = some k) (due : k ≤ 1) (first : firstReleasing f s = some n) :
    (pathStep f s).flight f =
        { s.flight f with state := .tripped, dwell := none, armTimer := none, tripCause := some (.brakeTimeout n) } ∧
      ∀ m ∈ (s.flight f).members, (pathStep f s).axis m = (s.axis m).brakedDown := by
  have trip : pathStep f s =
      tripFlight f (.brakeTimeout n) (s.updFlight f fun r => { r with armTimer := some (k - 1) }) := by
    simp only [pathStep, state, timer, armingStep, if_pos due, first]
  rw [trip]
  refine ⟨?_, fun m hm => ?_⟩
  · rw [tripFlight_flight_same, State.updFlight_flight_same]
    simp only [Flight.afterTrip, state]
  · rw [tripFlight_axis, State.updFlight_flight_same, if_pos ⟨by rw [state]; rfl, hm⟩]
    rfl

/-- A flight that neither moves nor waits on a count is left alone (03, R44). -/
theorem pathStep_idle (idle : (s.flight f).state = .free ∨ (s.flight f).state = .parked ∨ (s.flight f).state = .ready ∨
    (s.flight f).state = .held ∨ (s.flight f).state = .tripped) : pathStep f s = s := by
  rcases idle with h | h | h | h | h <;> simp only [pathStep, h]

/-! ### STOPPING -/

theorem pathStep_stopping {act : Active} {a : Nat} (state : (s.flight f).state = .stopping)
    (active : (s.flight f).active = some act) (stop : act.aStop = some a) :
    (pathStep f s).flight f = (s.flight f).afterStop act a := by
  have speed : stoppingSpeed act = act.speed - a := by rw [stoppingSpeed, stop]; rfl
  have step : pathStep f s = stoppingStep f act s := by simp only [pathStep, state, active]
  rw [step]
  simp only [stoppingStep, Active.advanced, speed, Flight.afterStop]
  split
  · rw [completeStopping_flight_same, advance_flight_same]
    rfl
  · split
    · rw [putFlightState_flight_same, advance_flight_same]
    · rw [advance_flight_same]

/-- A cause recorded ahead of the stop's work stands behind it. -/
theorem afterStop_holdCause (r : Flight) (act : Active) (a : Nat) (cause : Option HoldCause) :
    { r with holdCause := cause }.afterStop act a = { r.afterStop act a with holdCause := cause } := by
  simp only [Flight.afterStop]
  repeat' split
  all_goals rfl

theorem afterStop_state {r : Flight} (stopping : r.state = .stopping) (act : Active) (a : Nat) :
    (r.afterStop act a).state = .held ∨ (r.afterStop act a).state = .stopping := by
  unfold Flight.afterStop
  dsimp only
  split
  · exact .inl rfl
  · split
    · exact .inl rfl
    · exact .inr stopping

/-! ### MOVING -/

/-- What the completion of a MOVING flight makes of its record, by the dwell and the follow decision (02, R35 to R37, R39). -/
theorem completeMoving_flight (f : FlightId) (act : Active) (s : State) :
    (act.seg.dwell ≠ 0 →
      (completeMoving f act s).flight f = { (s.flight f).closed act with state := .dwell, dwell := some act.seg.dwell }) ∧
    (act.seg.dwell = 0 →
      ((∀ seg rest, ((s.flight f).closed act).queue = seg :: rest → seg.start ≠ .follow) →
        (completeMoving f act s).flight f = { (s.flight f).closed act with state := .ready }) ∧
      ∀ seg rest, ((s.flight f).closed act).queue = seg :: rest → seg.start = .follow →
        (StartFits s f seg → (completeMoving f act s).flight f =
          ((s.flight f).closed act).started rest (activeOf (s.memberAxes f) (s.flight f).holdDecel seg false)) ∧
        (¬StartFits s f seg → (completeMoving f act s).flight f = ((s.flight f).closed act).rejected rest)) := by
  refine ⟨fun dwells => ?_, fun none => ?_⟩
  · rw [completeMoving_dwell dwells, Flight.landed, if_neg dwells]
  · have decided := followDecision_flight f (closeSegment f act s)
    have axes : (closeSegment f act s).memberAxes f = s.memberAxes f :=
      memberAxes_congr (by rw [closeSegment_flight_same]; rfl) (closeSegment_axes f act s)
    have slots : (closeSegment f act s).slots = s.slots := (closeSegment_work f act s).motion.slots
    have fits (seg : Segment) : StartFits (closeSegment f act s) f seg ↔ StartFits s f seg :=
      startFits_congr (by rw [closeSegment_flight_same]; rfl) (by rw [closeSegment_flight_same]; exact ⟨rfl, rfl⟩) slots
        fun n _ => by rw [State.axis, closeSegment_axes]; rfl
    rw [completeMoving_follow none]
    simp only [closeSegment_flight_same, axes, fits] at decided
    exact decided

/-- The path position behind an expiry of a MOVING flight (03, R53 to R56). -/
def Active.nextPos (act : Active) : Nat :=
  act.pos + if act.pos = act.pathLen then 0 else movingSpeed act (act.pathLen - act.pos)

theorem nextPos_arrived {act : Active} (arrived : act.pos = act.pathLen) : act.nextPos = act.pathLen := by
  rw [Active.nextPos, if_pos arrived, Nat.add_zero, arrived]

theorem nextPos_underway {act : Active} (underway : act.pos ≠ act.pathLen) :
    act.nextPos = act.pos + movingSpeed act (act.pathLen - act.pos) := by
  rw [Active.nextPos, if_neg underway]

/-- A completion of the advanced segment, the set-points written or not, is the completion of a MOVING flight. -/
theorem completeMoving_moved {act next : Active} {x : Option Active} (arrives : act.nextPos = act.pathLen)
    (record : t.flight f = { s.flight f with active := x }) (ropes : RopesMoved f s t) (slots : t.slots = s.slots)
    (seg : next.seg = act.seg) (byCue : next.byCue = act.byCue) :
    MovedRecord f act s (completeMoving f next t) ((completeMoving f next t).flight f) := by
  obtain ⟨dwells, follows⟩ := completeMoving_flight f next t
  have closed : (t.flight f).closed next = (s.flight f).closed act := by
    rw [record]; simp only [Flight.closed, recycledQueue, gateBehind, seg, byCue]
  have axes : t.memberAxes f = (s.flight f).members.map (completeMoving f next t).axis := by
    rw [State.memberAxes, record]
    exact List.map_congr_left fun n _ => by rw [State.axis, State.axis, completeMoving_axes]
  have fits (g : Segment) : StartFits t f g ↔ StartFits s f g :=
    startFits_congr (by rw [record]) (by rw [record]; exact ⟨rfl, rfl⟩) slots fun n _ => by rw [ropes.axis n]
  have holdDecel : (t.flight f).holdDecel = (s.flight f).holdDecel := by rw [record]
  simp only [closed, axes, fits, holdDecel, seg] at dwells follows
  refine ⟨fun away => absurd arrives away, fun _ => ⟨dwells, fun none head => ?_, fun none g rest queue follow => ?_⟩⟩
  · refine (follows none).1 fun g rest queue => head g ?_
    exact (congrArg List.head? queue :)
  · obtain ⟨fit, unfit⟩ := (follows none).2 g rest queue follow
    exact ⟨fun passes _ => fit passes, fun fails => unfit fails⟩

/-- The advance or the completion of a MOVING flight, its members' axes read behind it (03, R53 to R56). -/
theorem pathStep_moving {act : Active} (state : (s.flight f).state = .moving) (active : (s.flight f).active = some act)
    (within : act.pos ≤ act.pathLen) : MovedRecord f act s (pathStep f s) ((pathStep f s).flight f) := by
  have step : pathStep f s = movingStep f act s := by simp only [pathStep, state, active]
  rw [step, movingStep]
  by_cases arrived : act.pos = act.pathLen
  · rw [if_pos (by omega)]
    exact completeMoving_moved (x := some act) (nextPos_arrived arrived) (by rw [← active]) (.of_axes rfl) rfl rfl rfl
  · rw [if_neg (by omega)]
    have pos := nextPos_underway arrived
    dsimp only [Active.advanced]
    split
    · rename_i arrives
      exact completeMoving_moved (pos.trans arrives) (advance_flight_same _ _ _) (advance_ropes _ _ _)
        (advance_work _ _ _).motion.slots rfl rfl
    · rename_i away
      refine ⟨fun _ => ?_, fun arrives => absurd (pos.symm.trans arrives) away⟩
      rw [advance_flight_same, if_neg arrived]

/-- The axes of a moved flight's members are read behind the expiry; the rest of the record is judged ahead of it. -/
theorem MovedRecord.between {act : Active} {v : State} {r : Flight} (h : FlightStands f s u)
    (axes : ∀ n ∈ (s.flight f).members, t.axis n = v.axis n) (moved : MovedRecord f act u v r) : MovedRecord f act s t r := by
  have same : (s.flight f).members.map v.axis = (s.flight f).members.map t.axis :=
    List.map_congr_left fun n hn => (axes n hn).symm
  have fits (seg : Segment) : (TargetsFit u f seg ∧ (seg.loadCheck = true → LoadsFit u f)) ↔
      (TargetsFit s f seg ∧ (seg.loadCheck = true → LoadsFit s f)) := h.startFits
  have unshared : MembersUnshared f u ↔ MembersUnshared f s := by simp only [MembersUnshared, h.members]
  unfold MovedRecord at moved ⊢
  simp only [fits, unshared] at moved
  rw [h.flight, same] at moved
  exact moved

theorem FollowMove.state {ms : List Axis} {r r' : Flight} (h : FollowMove ms r r') : r'.state ≠ .arming := by
  cases h with
  | ready => simp
  | start h => cases h <;> simp [Flight.rejected, Flight.started]

theorem completeMoving_state (f : FlightId) (act : Active) (s : State) : ((completeMoving f act s).flight f).state ≠ .arming := by
  by_cases dwell : act.seg.dwell = 0
  · rw [completeMoving_follow dwell]
    exact (followDecision_move f _).state
  · rw [completeMoving_dwell dwell]
    simp [Flight.landed]

theorem pathStep_moving_state (state : (s.flight f).state = .moving) : ((pathStep f s).flight f).state ≠ .arming := by
  simp only [pathStep, state]
  split
  · unfold movingStep
    dsimp only
    repeat' split
    · exact completeMoving_state _ _ _
    · exact completeMoving_state _ _ _
    · rw [advance_flight_same]; simp [state]
  · simp [state]

/-! ### The restraint at an expiry -/

theorem afterRestraint_hold {r : Flight} (state : r.state ≠ .arming) (cause : HoldCause) :
    r.afterRestraint cause = r.afterHold cause := by
  rw [Flight.afterRestraint, if_neg state]

theorem afterRestraint_arming {r : Flight} (state : r.state = .arming) (cause : HoldCause) :
    r.afterRestraint cause = { r with state := .parked, armTimer := none, holdCause := some cause } := by
  rw [Flight.afterRestraint, if_pos state, Flight.afterAbort, if_pos state]

/-- A hold that the claimer's silence makes behind the path work of the expiry. -/
theorem restrainFlight_hold {cause : HoldCause} (state : (s.flight f).state ≠ .arming) :
    (restrainFlight f cause s).flight f = (s.flight f).afterHold cause ∧
      ∀ n, (restrainFlight f cause s).axis n = s.axis n :=
  ⟨by rw [restrainFlight_flight_same, afterRestraint_hold state], fun n => by rw [restrainFlight_axis, if_neg fun h => state h.1]⟩

theorem restrainFlight_abort {cause : HoldCause} (state : (s.flight f).state = .arming) :
    (restrainFlight f cause s).flight f = { s.flight f with state := .parked, armTimer := none, holdCause := some cause } ∧
      ∀ n ∈ (s.flight f).members, (restrainFlight f cause s).axis n = (s.axis n).brakedDown :=
  ⟨by rw [restrainFlight_flight_same, afterRestraint_arming state],
    fun n hn => by rw [restrainFlight_axis, if_pos ⟨state, hn⟩]⟩

/-- A flight that the restraint leaves at rest does no path work behind it. -/
theorem pathStep_restrained {cause : HoldCause} {r : Flight} (restrained : (restrainFlight f cause s).flight f = r)
    (rest : r.state = .parked ∨ r.state = .held ∨ r.state = .tripped) :
    pathStep f (restrainFlight f cause s) = restrainFlight f cause s := by
  subst restrained
  exact pathStep_idle (by tauto)

/-! ### The two orders of path work and restraint, by the flight's state (06, R118, R120; log entry 7) -/

/-- t is, for the flight, what its path work and the hold of its claimer's silence make of s, in either order. -/
def BothOrders (f : FlightId) (s t : State) : Prop :=
  FlightStands f (restrainFlight f .stationSilent (pathStep f s)) t ∨
    FlightStands f (pathStep f (restrainFlight f .stationSilent s)) t

theorem late_arming_counts {k : Nat} (orders : BothOrders f s t) (state : (s.flight f).state = .arming)
    (timer : (s.flight f).armTimer = some k) (early : 1 < k) :
    t.flight f = { s.flight f with state := .parked, armTimer := none, holdCause := some .stationSilent } := by
  rcases orders with pathFirst | holdFirst
  · have counted := pathStep_arming_counts state timer early
    rw [pathFirst.flight, (restrainFlight_abort (by rw [counted]; exact state)).1, counted]
  · have aborted := (restrainFlight_abort (cause := .stationSilent) state).1
    rw [holdFirst.flight, pathStep_restrained aborted (.inl rfl), aborted]

theorem late_arming_trips {k : Nat} {n : AxisId} (orders : BothOrders f s t) (state : (s.flight f).state = .arming)
    (timer : (s.flight f).armTimer = some k) (due : k ≤ 1) (first : firstReleasing f s = some n) :
    (t.flight f = { s.flight f with state := .parked, armTimer := none, holdCause := some .stationSilent } ∨
      t.flight f = { s.flight f with state := .tripped, dwell := none, armTimer := none,
                                     tripCause := some (.brakeTimeout n) }) ∧
      ∀ m ∈ (s.flight f).members, t.axis m = (s.axis m).brakedDown := by
  rcases orders with pathFirst | holdFirst
  · obtain ⟨tripped, braked⟩ := pathStep_arming_trips state timer due first
    rw [restrainFlight_tripped (by rw [tripped])] at pathFirst
    refine ⟨.inr (pathFirst.flight.trans tripped), fun m hm => ?_⟩
    rw [pathFirst.axes m (by rw [tripped]; exact hm), braked m hm]
  · obtain ⟨aborted, braked⟩ := restrainFlight_abort (cause := .stationSilent) state
    rw [pathStep_restrained aborted (.inl rfl)] at holdFirst
    refine ⟨.inl (holdFirst.flight.trans aborted), fun m hm => ?_⟩
    rw [holdFirst.axes m (by rw [aborted]; exact hm), braked m hm]

/-- What the restraint makes of a flight that is neither ARMING nor moves: the hold alone, with no path work behind it. -/
theorem holdFirst_rests {r : Flight} (state : (s.flight f).state ≠ .arming)
    (held : (s.flight f).afterHold .stationSilent = r) (rest : r.state = .parked ∨ r.state = .held ∨ r.state = .tripped) :
    (pathStep f (restrainFlight f .stationSilent s)).flight f = r := by
  have hold := (restrainFlight_hold (cause := .stationSilent) state).1.trans held
  rw [pathStep_restrained hold rest, hold]

theorem late_held (orders : BothOrders f s t) (state : (s.flight f).state = .held) :
    t.flight f = { s.flight f with holdCause := some .stationSilent } := by
  have held : (s.flight f).afterHold .stationSilent = { s.flight f with holdCause := some .stationSilent } := by
    simp only [Flight.afterHold, state]
  have away : (s.flight f).state ≠ .arming := by simp [state]
  rcases orders with pathFirst | holdFirst
  · rw [pathStep_idle (by simp [state])] at pathFirst
    rw [pathFirst.flight, (restrainFlight_hold away).1, held]
  · rw [holdFirst.flight, holdFirst_rests away held (.inr (.inl state))]

theorem afterHold_dwell {r : Flight} (state : r.state = .dwell) (cause : HoldCause) :
    r.afterHold cause = { r with state := .held, holdCause := some cause } := by
  simp only [Flight.afterHold, state]

theorem late_dwell_ends {d : Nat} (orders : BothOrders f s t) (state : (s.flight f).state = .dwell)
    (dwell : (s.flight f).dwell = some d) (due : d ≤ 1) :
    t.flight f = { s.flight f with state := .held, holdCause := some .stationSilent } ∨
      ∃ r, DwellEnded f s r ∧ t.flight f = r.afterHold .stationSilent := by
  rcases orders with pathFirst | holdFirst
  · have ended := pathStep_dwell_ends state dwell due
    have away : ((pathStep f s).flight f).state ≠ .arming := by rcases ended.state with e | e <;> simp [e]
    exact .inr ⟨_, ended, pathFirst.flight.trans (restrainFlight_hold away).1⟩
  · exact .inl (holdFirst.flight.trans (holdFirst_rests (by simp [state]) (afterHold_dwell state _) (.inr (.inl rfl))))

theorem late_dwell_counts {d : Nat} (orders : BothOrders f s t) (state : (s.flight f).state = .dwell)
    (dwell : (s.flight f).dwell = some d) (early : 1 < d) :
    t.flight f = { s.flight f with state := .held, holdCause := some .stationSilent } ∨
      t.flight f = { s.flight f with state := .held, dwell := some (d - 1), holdCause := some .stationSilent } := by
  rcases orders with pathFirst | holdFirst
  · have counted := pathStep_dwell_counts state dwell early
    have still : ((pathStep f s).flight f).state = .dwell := by rw [counted]; exact state
    right
    rw [pathFirst.flight, (restrainFlight_hold (by simp [still])).1, afterHold_dwell still, counted]
  · exact .inl (holdFirst.flight.trans (holdFirst_rests (by simp [state]) (afterHold_dwell state _) (.inr (.inl rfl))))

theorem afterHold_stopping {r : Flight} (state : r.state = .stopping ∨ r.state = .held) (cause : HoldCause) :
    r.afterHold cause = { r with holdCause := some cause } := by
  rcases state with e | e <;> simp only [Flight.afterHold, e]

theorem late_stopping {act : Active} {a : Nat} (orders : BothOrders f s t) (state : (s.flight f).state = .stopping)
    (active : (s.flight f).active = some act) (stop : act.aStop = some a) :
    t.flight f = { (s.flight f).afterStop act a with holdCause := some .stationSilent } := by
  rcases orders with pathFirst | holdFirst
  · have stopped := pathStep_stopping state active stop
    have lands := afterStop_state state act a
    rw [← stopped] at lands ⊢
    rw [pathFirst.flight, (restrainFlight_hold (by rcases lands with e | e <;> simp [e])).1,
      afterHold_stopping lands.symm]
  · have held := (restrainFlight_hold (cause := .stationSilent) (s := s) (f := f) (by simp [state])).1
    rw [afterHold_stopping (.inl state)] at held
    rw [holdFirst.flight, pathStep_stopping (act := act) (by rw [held]; exact state) (by rw [held]; exact active) stop, held,
      afterStop_holdCause]

theorem late_moving {act : Active} (orders : BothOrders f s t) (state : (s.flight f).state = .moving)
    (active : (s.flight f).active = some act) (within : act.pos ≤ act.pathLen) :
    (∃ r, MovedRecord f act s t r ∧ t.flight f = r.afterHold .stationSilent) ∨
      let held : Active := { act with aStop := some (max act.aDnEff act.aHoldEff) }
      t.flight f = { s.flight f with state := .stopping, holdCause := some .stationSilent, active := some held }.afterStop
        held (max act.aDnEff act.aHoldEff) := by
  rcases orders with pathFirst | holdFirst
  · obtain ⟨hold, axes⟩ := restrainFlight_hold (cause := .stationSilent) (pathStep_moving_state state)
    refine .inl ⟨_, (pathStep_moving state active within).between (.refl f s) fun n hn => ?_, pathFirst.flight.trans hold⟩
    rw [pathFirst.axes n, axes]
    rw [((pathStep_expiryWork f s).trans (restrainFlight_expiryWork f _ _)).members]
    exact hn
  · right
    have held : (restrainFlight f .stationSilent s).flight f =
        { s.flight f with state := .stopping, holdCause := some .stationSilent
                          active := some { act with aStop := some act.stopRate } } := by
      rw [(restrainFlight_hold (by simp [state])).1]
      simp only [Flight.afterHold, state, active, Option.map_some]
    rw [holdFirst.flight, pathStep_stopping (a := act.stopRate) (by rw [held]) (by rw [held]) rfl, held]
    rfl

/-! ### Flights at rest -/

/-- Neither path work nor a restraint changes the record of a FREE, PARKED, READY or TRIPPED flight. -/
theorem flightExpiry_resting {late : Station → Bool} (resting : (s.flight f).state = .free ∨ (s.flight f).state = .parked ∨
    (s.flight f).state = .ready ∨ (s.flight f).state = .tripped) : (flightExpiry late f s).flight f = s.flight f := by
  have idle (k : Nat) : pathStep f { s with freeIndex := k } = { s with freeIndex := k } :=
    pathStep_idle (s := { s with freeIndex := k }) (by revert resting; tauto)
  have hold : (s.flight f).afterRestraint .stationSilent = s.flight f := by
    rcases resting with e | e | e | e <;> simp [Flight.afterRestraint, Flight.afterHold, e]
  have restrained (k : Nat) : (restrainFlight f .stationSilent { s with freeIndex := k }).flight f = s.flight f :=
    (restrainFlight_flight_same _ _ _).trans hold
  rcases flightExpiry_cases late f s with ⟨-, e⟩ | ⟨-, k, e | e⟩ <;> rw [e]
  · rw [pathStep_idle (by tauto)]
  · rw [idle, restrained]
  · rw [pathStep_idle (by rw [restrained]; tauto), restrained]

end

section
variable {s : State} {f : FlightId}

theorem stepAll_resting (rig : RigSound s) (resting : (s.flight f).state = .free ∨ (s.flight f).state = .parked ∨
    (s.flight f).state = .ready ∨ (s.flight f).state = .tripped) : (stepAll s).flight f = s.flight f := by
  obtain ⟨u, before, behind⟩ := stepAll_flight rig f
  rw [← before.flight] at resting ⊢
  exact behind.flight.trans (flightExpiry_resting resting)

/-- The first RELEASING member of a flight, named in a state that agrees with s on the flight and its members. -/
theorem FlightStands.firstReleasing {u : State} (h : FlightStands f s u) {before after : List AxisId} {n : AxisId}
    (members : (s.flight f).members = before ++ n :: after) (releasing : (s.axis n).state = .releasing)
    (first : ∀ m ∈ before, (s.axis m).state ≠ .releasing) : firstReleasing f u = some n := by
  have mem (m : AxisId) (hm : m ∈ before ++ n :: after) : u.axis m = s.axis m := h.axes m (members ▸ hm)
  refine firstReleasing_eq (before := before) (after := after) (by rw [h.flight, members]) ?_ fun m hm => ?_
  · rw [mem n (by simp)]; exact releasing
  · rw [mem m (by simp [hm])]; exact first m hm

end

/-- Settles O41: what the expiry does beside the flights, and one flight's work by its state, apart from the other flights'
and with the two orders of path work and restraint where its claimer falls SILENT. -/
theorem expiryReachesTheRest : Obligations.ExpiryReachesTheRest := by
  have run (s : State) (running : s.timerRunning = true) : exec .stepExpiry s = .next (stepAll s) := by
    show execStepExpiry s = _
    rw [execStepExpiry, if_pos running]
  refine ⟨fun s running => ?_, fun f s rig running => ⟨stepAll s, run s running, fun heard => ?_, stepAll_resting rig,
    fun st claim active due => ?_⟩⟩
  · obtain ⟨counter, stations, rest⟩ := stepAll_rest s
    exact ⟨stepAll s, run s running, counter, fun st => ⟨(stations st).silent, (stations st).counts, (stations st).falls⟩, rest⟩
  · obtain ⟨u, before, behind⟩ := stepAll_heard rig heard
    have flight := behind.flight
    have work := pathStep_expiryWork f u
    refine ⟨fun d state dwell early => ?_, fun d state dwell ends => ?_, fun state => ?_, fun k state timer early => ?_,
      fun k pre n post state timer ends members releasing first => ?_⟩
    all_goals rw [← before.flight] at state
    · rw [← before.flight] at dwell ⊢
      rw [flight, pathStep_dwell_counts state dwell early]
    · rw [← before.flight] at dwell
      rw [flight]
      exact (pathStep_dwell_ends state dwell ends).before before
    · rw [flight, pathStep_idle (by simp [state]), before.flight]
    · rw [← before.flight] at timer ⊢
      rw [flight, pathStep_arming_counts state timer early]
    · rw [← before.flight] at timer
      obtain ⟨tripped, braked⟩ := pathStep_arming_trips state timer ends (before.firstReleasing members releasing first)
      refine ⟨by rw [flight, tripped, before.flight], fun m hm => ?_⟩
      have own : m ∈ (u.flight f).members := by rw [before.flight]; exact hm
      rw [behind.axes m (by rw [work.members]; exact own), braked m own, before.axes m hm]
  · obtain ⟨u, before, orders⟩ := stepAll_late rig claim active due
    have orders : BothOrders f u (stepAll s) := orders
    refine ⟨fun k state timer early => ?_, fun k pre n post state timer ends members releasing first => ?_, fun state => ?_,
      fun d state dwell ends => ?_, fun d state dwell early => ?_, fun act state segment within => ?_,
      fun act a state segment stop => ?_⟩
    all_goals rw [← before.flight] at state
    · rw [← before.flight] at timer ⊢
      exact late_arming_counts orders state timer early
    · rw [← before.flight] at timer
      obtain ⟨record, braked⟩ :=
        late_arming_trips orders state timer ends (before.firstReleasing members releasing first)
      rw [before.flight] at record braked
      exact ⟨record, fun m hm => by rw [braked m hm, before.axes m hm]⟩
    · rw [← before.flight]
      exact late_held orders state
    · rw [← before.flight] at dwell ⊢
      refine (late_dwell_ends orders state dwell ends).imp_right fun ⟨r, ended, record⟩ => ⟨r, ended.before before, record⟩
    · rw [← before.flight] at dwell ⊢
      exact late_dwell_counts orders state dwell early
    · rw [← before.flight] at segment ⊢
      exact (late_moving orders state segment within).imp_left fun ⟨r, moved, record⟩ =>
        ⟨r, moved.between before fun _ _ => rfl, record⟩
    · rw [← before.flight] at segment ⊢
      exact late_stopping orders state segment stop

end Sys2Proof.Machine
end

section
namespace Sys2Proof.Machine

/-! ## The queue on request (02, R24 to R29; 06, R111) -/

/-! ### FLUSH and the cue gate -/

/-- Settles O31: each of the three requests reaches the owner of its flight. -/
theorem flushAndCueGates : Obligations.FlushAndCueGates := by
  intro st flight f s hf live claim
  refine ⟨?_, exec_accepted (i := .openCue st flight) rfl live (driving_claimed (s := markHeard st s) hf claim),
    exec_accepted (i := .closeCue st flight) rfl live (driving_claimed (s := markHeard st s) hf claim)⟩
  have served : serveRequest (.flush st flight) (markHeard st s) =
      if (s.flight f).state = .free then refuse (markHeard st s) .badState
      else accept ((markHeard st s).updFlight f fun r => { r with queue := [] }) := driving_claimed hf claim
  split
  · rename_i free
    exact exec_refused (i := .flush st flight) rfl live (served.trans (if_pos free))
  · rename_i bound
    exact exec_accepted (i := .flush st flight) rfl live (served.trans (if_neg bound))

/-! ### APPEND -/

theorem startKindOf_none {b : Byte} (h : 3 ≤ b.toNat) : startKindOf b = none := by
  unfold startKindOf; split <;> first | omega | rfl

/-- An APPEND with a field out of its range is not taken (02, R24 check 1). -/
theorem segmentOf_none {tag : Half} {presence : Byte} {t0 t1 t2 t3 vmax : Word} {aUp aDn dwell : Half}
    {start flags : Byte}
    (out : 16 ≤ presence.toNat ∨ 4 ≤ flags.toNat ∨ vmax.toNat < 1 ∨ 192000 < vmax.toNat ∨ aUp.toNat < 1 ∨
      1024 < aUp.toNat ∨ aDn.toNat < 1 ∨ 1024 < aDn.toNat ∨ 3 ≤ start.toNat) :
    segmentOf tag presence t0 t1 t2 t3 vmax aUp aDn dwell start flags = none := by
  unfold segmentOf
  split
  · rfl
  · rename_i k kind
    have known : ¬3 ≤ start.toNat := fun h => by rw [startKindOf_none h] at kind; cases kind
    rw [if_neg]
    simp only [Bool.and_eq_true, decide_eq_true_eq, inRange_iff, maxSpeed, maxAccel]
    omega

/-- A target is present for a slot without a member, told by the presence bits of the APPEND (02, R24 check 4). -/
theorem targetWithoutMember_iff {members : List AxisId} {seg : Segment} {presence : Byte} {t0 t1 t2 t3 : Word}
    (targets : seg.targets = targetsOf presence t0 t1 t2 t3) :
    targetWithoutMember members seg = true ↔ ∃ i : Fin 4, members.length ≤ i.val ∧ presence.getLsbD i = true := by
  have present (i : Fin 4) : (seg.target i).isSome = presence.getLsbD i := by
    rw [Segment.target, dif_pos i.isLt, targets]
    have shown (b : Bool) (x : Int) : (if b = true then some x else none).isSome = b := by cases b <;> rfl
    match i with
    | 0 => exact shown _ _
    | 1 => exact shown _ _
    | 2 => exact shown _ _
    | 3 => exact shown _ _
  have slots : targetWithoutMember members seg = ([0, 1, 2, 3] : List (Fin 4)).any fun i =>
      decide (members.length ≤ i.val) && (seg.target i).isSome := rfl
  rw [slots, List.any_eq_true]
  simp only [present, Bool.and_eq_true, decide_eq_true_eq]
  exact exists_congr fun i => and_iff_right (by revert i; decide)

/-- Settles O30: the port's checks of the fields, the claim, and then the checks of the queue in their order. -/
theorem appendJoinsTheTail : Obligations.AppendJoinsTheTail := by
  refine ⟨fun st flight tag presence t0 t1 t2 t3 vmax aUp aDn dwell start flags s live out => ?_,
    fun st flight f tag presence t0 t1 t2 t3 vmax aUp aDn dwell start flags k s hf live h1 h2 h3 h4 h5 h6 h7 h8 kind => ?_⟩
  · refine exec_refused (i := .append st flight tag presence t0 t1 t2 t3 vmax aUp aDn dwell start flags) rfl live ?_
    show serveAppend _ _ _ _ _ _ _ _ _ _ _ _ _ _ _ = _
    unfold serveAppend
    rcases out with noFlight | out
    · split
      · rfl
      · rw [driving_noFlight noFlight]
    · rw [segmentOf_none out]
  · intro seg result
    have spelled : encodeRequest (.append st flight tag presence t0 t1 t2 t3 vmax aUp aDn dwell start flags) =
      some (st, kindAppend, _) := rfl
    have served : serveRequest (.append st flight tag presence t0 t1 t2 t3 vmax aUp aDn dwell start flags) (markHeard st s) =
        driving st flight (markHeard st s) fun f =>
          if (s.flight f).state = .free then refuse (markHeard st s) .badState
          else if targetWithoutMember (s.flight f).members seg = true then refuse (markHeard st s) .badParameter
          else if targetsWithin (s.memberAxes f) seg = false then refuse (markHeard st s) .outOfLimits
          else if 8 ≤ (s.flight f).queue.length then refuse (markHeard st s) .queueFull
          else accept ((markHeard st s).updFlight f fun r => { r with queue := r.queue ++ [seg], queueLow := false }) := by
      show serveAppend _ _ _ _ _ _ _ _ _ _ _ _ _ _ _ = _
      rw [serveAppend, segmentOf_some h1 h2 h3 h4 h5 h6 h7 h8 kind]
      rfl
    split
    · rename_i other
      exact exec_refused spelled live (served.trans (driving_unclaimed hf other))
    rename_i claim
    rw [driving_claimed (s := markHeard st s) hf (not_not.mp claim)] at served
    split
    · rename_i free
      exact exec_refused spelled live (served.trans (if_pos free))
    rename_i bound
    rw [if_neg bound] at served
    have beyond := targetWithoutMember_iff (members := (s.flight f).members) (seg := seg) (presence := presence) rfl
    refine ⟨fun extra => exec_refused spelled live (served.trans (if_pos (beyond.mpr extra))), fun covered => ?_⟩
    rw [if_neg fun h => by
      obtain ⟨i, without, present⟩ := beyond.mp h
      exact absurd present (by simp [covered i without])] at served
    refine ⟨fun outside => ?_, fun fits => ?_⟩
    · refine exec_refused spelled live (served.trans (if_pos ?_))
      rwa [← Bool.not_eq_true, targetsWithin_iff]
    · rw [(targetsWithin_iff s f seg).mpr fits, if_neg (by decide)] at served
      split
      · rename_i full
        exact exec_refused spelled live (served.trans (if_pos full))
      · rename_i room
        exact exec_accepted spelled live (served.trans (if_neg room))

end Sys2Proof.Machine
end

section
namespace Sys2Proof.Machine

/-! ## Starts, and what they notify (02, R27, R30 to R34, R38, R39) -/

/-! ### Notices -/

section
variable {f h : FlightId} {s t : State} {u : Station}

theorem raiseFlight_notices (g : FlightNotices → FlightNotices) :
    ((raiseFlight f g s).port u).flightNotices[h] =
      if h = f then g ((s.port u).flightNotices[h]) else (s.port u).flightNotices[h] := by
  rw [raiseFlight, State.mapPorts_port]
  exact getElem_updAt _ _ _ _

theorem putFlightState_notices (x : FlightState) :
    ((putFlightState f x s).port u).flightNotices[h] =
      if h = f then { (s.port u).flightNotices[h] with state := true } else (s.port u).flightNotices[h] := by
  rw [port_congr (putFlightState_ports f x s)]
  exact raiseFlight_notices _

end

/-! ### What a start notifies -/

theorem raiseLow_ports_congr (f : FlightId) {s t : State} (h : t.ports = s.ports) :
    (raiseLow f t).ports = (raiseLow f s).ports := by
  simp only [raiseLow, raiseFlight, State.mapPorts, h]

theorem activate_ports (f : FlightId) (seg : Segment) (byCue : Bool) (s : State) :
    (activate f seg byCue s).ports = (raiseState f (if (s.flight f).queue = [] then raiseLow f s else s)).ports := by
  unfold activate
  dsimp only
  by_cases empty : (s.flight f).queue = []
  · rw [if_pos (by simp [empty]), if_pos empty, putFlightState_ports]
    exact raiseState_ports_congr f (raiseLow_ports_congr f rfl)
  · rw [if_neg (by simpa using empty), if_neg empty, putFlightState_ports]
    exact raiseState_ports_congr f rfl

section
variable {byCue : Bool} {f : FlightId} {s : State} {seg : Segment} {rest : List Segment}

/-- The ports behind the start of a head: STATE, and LOW where the queue is left empty (02, R27, R34). -/
theorem startHead_ports_fits (queue : (s.flight f).queue = seg :: rest) (fits : StartFits s f seg) :
    (startHead byCue f s).1.ports = (raiseState f (if rest = [] then raiseLow f s else s)).ports := by
  rw [startHead_taken queue fits.1 fits.2]
  dsimp only
  rw [activate_ports, State.updFlight_flight_same]
  refine raiseState_ports_congr f ?_
  dsimp only
  split
  · exact raiseLow_ports_congr f rfl
  · rfl

/-- A start drives the outputs (09, R169 to R171). -/
theorem startHead_driven_fits (queue : (s.flight f).queue = seg :: rest) (fits : StartFits s f seg) :
    OutputsDriven s (startHead byCue f s).1 := by
  rw [startHead_taken queue fits.1 fits.2]
  exact (updFlight_statesKept (f := f) (g := fun r => { r with queue := rest }) s fun _ => rfl).driven (activate_driven _ _ _ _)

/-- A head with a target outside its member's limits is rejected as OUT_OF_LIMITS (02, R31, R33). -/
theorem startHead_outside (queue : (s.flight f).queue = seg :: rest) (outside : ¬TargetsFit s f seg) :
    startHead byCue f s = (rejectStart f (s.updFlight f fun r => { r with queue := rest }), .outOfLimits) := by
  rw [← targetsWithin_iff, Bool.not_eq_true] at outside
  simp only [startHead, queue, memberAxes_queue, outside, if_true]

/-- A head that fails the load check alone is rejected as LOAD_OUT_OF_WINDOW (02, R32, R33). -/
theorem startHead_overloaded (queue : (s.flight f).queue = seg :: rest) (fits : TargetsFit s f seg)
    (checked : seg.loadCheck = true) (load : ¬LoadsFit s f) :
    startHead byCue f s = (rejectStart f (s.updFlight f fun r => { r with queue := rest }), .loadOutOfWindow) := by
  rw [← targetsWithin_iff] at fits
  rw [← loadPasses_iff, Bool.not_eq_true] at load
  simp [startHead, queue, fits, checked, load]

theorem rejectStart_ready (ready : (s.flight f).state = .ready) : rejectStart f s = raiseReject f s := by
  rw [rejectStart, if_pos ready]

theorem rejectStart_away (away : (s.flight f).state ≠ .ready) :
    rejectStart f s = putFlightState f .ready (raiseReject f s) := by
  rw [rejectStart, if_neg away]

end

/-! ### GO -/

section
variable {st : Station} {flight : Byte} {f : FlightId} {s : State}

/-- GO by a claimer that may start, with no persisting condition: BAD_STATE away from READY, and else the start procedure (02, R29). -/
theorem serveGo_clear (hf : NamesFlight flight f) (claim : (s.flight f).claim = some st) (enable : s.enables.get st = true)
    (clear : ∀ i l, s.link i = some l → l.Targets f → ¬l.ConditionTrue s) :
    serveRequest (.go st flight) (markHeard st s) =
      if (s.flight f).state ≠ .ready then refuse (markHeard st s) .badState
      else ((startHead false f (markHeard st s)).1, { code := (startHead false f (markHeard st s)).2, data := [] }) := by
  have persists : (markHeard st s).persists f = false := (markHeard_persists st s f).trans (not_persists clear)
  show serveGo _ _ _ = _
  rw [serveGo, drivingEnabled_claimed (s := markHeard st s) hf claim ((markHeard_mayStart st s).trans enable), persists]
  rfl

end

/-- Settles O32: the start procedure on the head of a READY flight, its record, its notices and its outputs. -/
theorem goStartsTheHead : Obligations.GoStartsTheHead := by
  intro st flight f s hf live claim enable clear
  have spelled : encodeRequest (.go st flight) = some (st, kindGo, _) := rfl
  have served := serveGo_clear hf claim enable clear
  split
  · rename_i away
    exact exec_refused spelled live (served.trans (if_pos away))
  rename_i ready
  rw [if_neg ready] at served
  split <;> rename_i queue
  · rw [startHead_empty (s := markHeard st s) queue] at served
    exact exec_refused spelled live served
  · rename_i seg rest
    intro targets loads
    have fits : StartFits (markHeard st s) f seg := ⟨targets, loads⟩
    have done : (startHead false f (markHeard st s)).2 = .done := by
      rw [startHead_taken (s := markHeard st s) queue fits.1 fits.2]
    have work := startHead_work false f (markHeard st s)
    rw [done] at served
    refine ⟨_, _, exec_accepted spelled live served, startHead_flight_fits (s := markHeard st s) queue fits, rfl, rfl, ?_, rfl, rfl,
      rfl, rfl, work.others, startHead_axes _ _ _,
      reply_ports_congr (startHead_ports_fits (s := markHeard st s) queue fits) _ _ _,
      startHead_driven_fits (s := markHeard st s) queue fits, work.motion.reply _ _ _⟩
    exact List.map_map

/-- Settles O33: the two ways of a rejection, by the check that fails first. -/
theorem goRejectsTheHead : Obligations.GoRejectsTheHead := by
  intro st flight f seg rest s hf live claim enable clear ready queue dropped
  have spelled : encodeRequest (.go st flight) = some (st, kindGo, _) := rfl
  have served := serveGo_clear hf claim enable clear
  rw [if_neg (not_not.mpr ready)] at served
  have rejected : rejectStart f ((markHeard st s).updFlight f fun r => { r with queue := rest }) = dropped :=
    rejectStart_ready (by rw [State.updFlight_flight_same]; exact ready)
  refine ⟨fun outside => ?_, fun fits checked load => ?_⟩
  · rw [startHead_outside (s := markHeard st s) queue outside, rejected] at served
    rw [exec_served spelled live, served]; rfl
  · rw [startHead_overloaded (s := markHeard st s) queue fits checked load, rejected] at served
    rw [exec_served spelled live, served]; rfl

/-! ### A cue -/

theorem cueFlight_closed {f : FlightId} {s : State} (gate : (s.flight f).cueGate ≠ .opened) : cueFlight f s = s := by
  unfold cueFlight
  dsimp only
  split
  · simp [gate]
  · rfl
  · rfl

/-- A start leaves the notices of the lines alone. -/
theorem startHead_lines {byCue : Bool} {f : FlightId} {s : State} {seg : Segment} {rest : List Segment} (u : Station)
    (queue : (s.flight f).queue = seg :: rest) (fits : StartFits s f seg) :
    ((startHead byCue f s).1.port u).change = (s.port u).change ∧
      ((startHead byCue f s).1.port u).linesNotice = (s.port u).linesNotice := by
  rw [port_congr (startHead_ports_fits queue fits), raiseState_port]
  split
  · simp [raiseLow, raiseFlight]
  · exact ⟨rfl, rfl⟩

/-- A line that rises shows its change on every port (09, R161). -/
theorem lineRisen_port (n : LineId) (s : State) (k : Nat) (u : Station) :
    ((lineRisen n s k).port u).change[n] = true ∧ ((lineRisen n s k).port u).linesNotice = true := by
  have port : (lineRisen n s k).port u =
      { s.port u with change := updAt (s.port u).change n fun _ => true, linesNotice := true } :=
    State.mapPorts_port _ _ _
  rw [port]
  exact ⟨(getElem_updAt _ _ _ _).trans (if_pos rfl), rfl⟩

theorem lineRisen_line (n : LineId) (s : State) (k : Nat) :
    (lineRisen n s k).line n = { s.line n with filtered := some .high, pending := none } :=
  State.updLine_line_same _ _ _

/-- Settles O34: the one link that acts at the rise sends the cue, which meets an open gate or a closed one. -/
theorem cueStartsTheHead : Obligations.CueStartsTheHead := by
  intro n i f st seg rest s live on low pending sole ready queue start claim enable active clear fits loads
  have sent : sourceEvent (.line n) (changeOccurs .high) true (lineRisen n s s.freeIndex) =
      cueFlight f (lineRisen n s s.freeIndex) :=
    sourceEvent_sole (s := lineRisen n s s.freeIndex) sole (by simp [Link.Requests]) _ _
  refine ⟨_, exec_filterAccept_risen live on low pending, ?_⟩
  rw [sent]
  by_cases gate : (s.flight f).cueGate = .opened
  · have fits : StartFits (lineRisen n s s.freeIndex) f seg := ⟨fits, loads⟩
    have persists : (lineRisen n s s.freeIndex).persists f = false :=
      risen_clear sole.1 sole.1 (fun k l ne _ => sole.2 k l ne) clear
    have taken : cueFlight f (lineRisen n s s.freeIndex) = (startHead true f (lineRisen n s s.freeIndex)).1 :=
      cueFlight_taken (s := lineRisen n s s.freeIndex) ready gate queue start claim
        ((mayStart_iff _ _).mpr ⟨enable, active⟩) persists
    have work := startHead_work true f (lineRisen n s s.freeIndex)
    have line : (startHead true f (lineRisen n s s.freeIndex)).1.line n = _ :=
      (congrArg (fun v : Vector SenseLine 16 => v[n]) work.motion.lines).trans (lineRisen_line n s _)
    have ports (u : Station) := startHead_lines (byCue := true) (s := lineRisen n s s.freeIndex) u queue fits
    rw [taken]
    refine ⟨by rw [line], by rw [line], fun u => ?_, work.others, startHead_axes _ _ _, ?_⟩
    · rw [(ports u).1, (ports u).2]; exact lineRisen_port n s _ u
    · rw [if_pos gate]
      exact startHead_flight_fits (s := lineRisen n s s.freeIndex) queue fits
  · rw [cueFlight_closed (s := lineRisen n s s.freeIndex) gate]
    refine ⟨by rw [lineRisen_line], by rw [lineRisen_line], lineRisen_port n s _, fun _ _ => rfl, rfl, ?_⟩
    rw [if_neg gate]; rfl

/-! ### The follow decision -/

section
variable {f : FlightId} {s : State} {seg : Segment} {rest : List Segment}

/-- A follow decision of a flight that is not READY changes its state: the outputs are driven and STATE is raised. -/
theorem followDecision_changes (away : (s.flight f).state ≠ .ready) :
    OutputsDriven s (followDecision f s) ∧ ∀ u, ((followDecision f s).port u).flightNotices[f].state = true := by
  by_cases follows : ∃ seg rest, (s.flight f).queue = seg :: rest ∧ seg.start = .follow
  · obtain ⟨seg, rest, queue, follow⟩ := follows
    rw [followDecision_start queue follow]
    by_cases fits : StartFits s f seg
    · refine ⟨startHead_driven_fits queue fits, fun u => ?_⟩
      rw [port_congr (startHead_ports_fits queue fits), raiseState, raiseFlight_notices, if_pos rfl]
    · rw [(startHead_refused queue fits).1, rejectStart_away (by simpa using away)]
      refine ⟨putFlightState_drivenFrom rfl, fun u => ?_⟩
      rw [putFlightState_notices, if_pos rfl]
  · rw [followDecision_ready fun seg rest queue follow => follows ⟨seg, rest, queue, follow⟩]
    refine ⟨putFlightState_driven _ _ _, fun u => ?_⟩
    rw [putFlightState_notices, if_pos rfl]

/-- A FOLLOW head that fails its start checks raises REJECT (02, R33, R39). -/
theorem followDecision_rejects (away : (s.flight f).state ≠ .ready) (queue : (s.flight f).queue = seg :: rest)
    (follow : seg.start = .follow) (unfit : ¬StartFits s f seg) (u : Station) :
    ((followDecision f s).port u).flightNotices[f].reject = true := by
  rw [followDecision_start queue follow, (startHead_refused queue unfit).1, rejectStart_away (by simpa using away),
    putFlightState_notices, if_pos rfl, raiseReject, raiseFlight_notices, if_pos rfl]

end

/-- Settles O36: the end of a dwell is a follow decision of a flight that is not READY. -/
theorem dwellEnds : Obligations.DwellEnds := by
  intro f d s running state dwell due
  have run : exec (.dwellExpiry f) s = .next (endDwell f s) := by
    show execDwellExpiry f s = _
    simp [execDwellExpiry, state, dwell, running, due]
  have work := endDwell_work f s
  have away : ((s.updFlight f fun r => { r with dwell := none }).flight f).state ≠ .ready := by simp [state]
  obtain ⟨driven, notified⟩ := followDecision_changes away
  refine ⟨_, run, work.others, endDwell_axes f s, work.motion, ?_, notified, endDwell_ended f s,
    fun seg rest queue follow unfit => ?_⟩
  · exact (updFlight_statesKept s fun _ => by rfl).driven driven
  · have same : StartFits (s.updFlight f fun r => { r with dwell := none }) f seg ↔ StartFits s f seg :=
      startFits_congr (by simp) (by simp) rfl fun _ _ => rfl
    exact followDecision_rejects away (by simpa using queue) follow (fun fits => unfit (same.mp fits))

end Sys2Proof.Machine
end

section
namespace Sys2Proof.Machine

/-! ## A flight's advance at a step expiry, whatever the other flights do (02, R33 to R39; 03, R43, R44, R53 to R59; 04, R64) -/

/-! ### Parameters stand and notices are not taken back -/

/-- Every notice raised in the one is raised in the other. -/
structure FlightNotices.Within (x y : FlightNotices) : Prop where
  state : x.state = true → y.state = true
  done : x.done = true → y.done = true
  lost : x.lost = true → y.lost = true
  reject : x.reject = true → y.reject = true

theorem FlightNotices.Within.refl (x : FlightNotices) : x.Within x := ⟨id, id, id, id⟩

theorem FlightNotices.Within.trans {x y z : FlightNotices} (h : x.Within y) (k : y.Within z) : x.Within z :=
  ⟨k.state ∘ h.state, k.done ∘ h.done, k.lost ∘ h.lost, k.reject ∘ h.reject⟩

/-- From s to t no axis has changed its parameters, and no notice of a flight has been taken back. -/
structure PartsStand (s t : State) : Prop where
  params : ∀ n, (t.axis n).params = (s.axis n).params
  notices : ∀ u (g : FlightId), ((s.port u).flightNotices[g]).Within ((t.port u).flightNotices[g])

section
variable {f : FlightId} {s t u : State}

theorem PartsStand.refl (s : State) : PartsStand s s := ⟨fun _ => rfl, fun _ _ => .refl _⟩

theorem PartsStand.trans (h : PartsStand s t) (k : PartsStand t u) : PartsStand s u :=
  ⟨fun n => (k.params n).trans (h.params n), fun u g => (h.notices u g).trans (k.notices u g)⟩

theorem updFlight_parts (g : Flight → Flight) : PartsStand s (s.updFlight f g) := ⟨fun _ => rfl, fun _ _ => .refl _⟩

theorem mapAxes_parts {g : AxisId → Axis → Axis} (h : ∀ n a, (g n a).params = a.params) : PartsStand s (s.mapAxes g) :=
  ⟨fun n => by rw [State.mapAxes_axis, h], fun _ _ => .refl _⟩

theorem raiseFlight_parts {g : FlightNotices → FlightNotices} (h : ∀ x : FlightNotices, x.Within (g x)) :
    PartsStand s (raiseFlight f g s) := by
  refine ⟨fun _ => rfl, fun u k => ?_⟩
  rw [raiseFlight_notices]
  split
  · exact h _
  · exact .refl _

theorem raiseDone_parts : PartsStand s (raiseDone f s) := raiseFlight_parts fun _ => ⟨id, fun _ => rfl, id, id⟩
theorem raiseLow_parts : PartsStand s (raiseLow f s) := raiseFlight_parts fun _ => ⟨id, id, id, id⟩
theorem raiseLost_parts : PartsStand s (raiseLost f s) := raiseFlight_parts fun _ => ⟨id, id, fun _ => rfl, id⟩
theorem raiseReject_parts : PartsStand s (raiseReject f s) := raiseFlight_parts fun _ => ⟨id, id, id, fun _ => rfl⟩

theorem putFlightState_parts (x : FlightState) : PartsStand s (putFlightState f x s) := by
  refine ⟨fun _ => rfl, fun u k => ?_⟩
  rw [putFlightState_notices]
  split
  · exact ⟨fun _ => rfl, id, id, id⟩
  · exact .refl _

theorem brakeMembers_parts : PartsStand s (brakeMembers f s) := mapAxes_parts fun n a => by split <;> rfl

theorem advance_parts (act : Active) : PartsStand s (advance f act s) := by
  unfold advance writeSetPoints
  split
  · exact updFlight_parts _
  · refine (updFlight_parts _).trans (mapAxes_parts fun n a => ?_)
    repeat' split
    all_goals rfl

theorem rejectStart_parts : PartsStand s (rejectStart f s) := by
  unfold rejectStart
  split
  · exact raiseReject_parts
  · exact raiseReject_parts.trans (putFlightState_parts _)

theorem activate_parts (seg : Segment) (byCue : Bool) : PartsStand s (activate f seg byCue s) := by
  unfold activate
  dsimp only
  split
  · exact ((updFlight_parts _).trans raiseLow_parts).trans (putFlightState_parts _)
  · exact (updFlight_parts _).trans (putFlightState_parts _)

theorem startHead_parts (byCue : Bool) : PartsStand s (startHead byCue f s).1 := by
  unfold startHead
  split
  · exact .refl _
  · dsimp only
    repeat' split
    · exact (updFlight_parts _).trans rejectStart_parts
    · exact (updFlight_parts _).trans rejectStart_parts
    · exact (updFlight_parts _).trans (activate_parts _ _)

theorem followDecision_parts : PartsStand s (followDecision f s) := by
  unfold followDecision
  repeat' split
  · exact putFlightState_parts _
  · exact startHead_parts _
  · exact putFlightState_parts _

theorem recycleCopy_parts (seg : Segment) : PartsStand s (recycleCopy f seg s) := by
  unfold recycleCopy
  repeat' split
  · exact updFlight_parts _
  · exact raiseLost_parts
  · exact .refl _

theorem closeSegment_parts (act : Active) : PartsStand s (closeSegment f act s) :=
  (raiseDone_parts.trans (recycleCopy_parts _)).trans (updFlight_parts _)

/-- What a completion of a MOVING flight does behind the close of its segment. -/
theorem completeMoving_behind (act : Active) : PartsStand (closeSegment f act s) (completeMoving f act s) := by
  unfold completeMoving
  dsimp only
  split
  · exact followDecision_parts
  · exact (updFlight_parts _).trans (putFlightState_parts _)

/-- What a completion of a STOPPING flight does behind the close of its segment. -/
theorem completeStopping_behind (act : Active) : PartsStand (closeSegment f act s) (completeStopping f act s) := by
  unfold completeStopping
  dsimp only
  split
  · exact putFlightState_parts _
  · exact (updFlight_parts _).trans (putFlightState_parts _)

theorem tripFlight_parts (cause : TripCause) : PartsStand s (tripFlight f cause s) := by
  unfold tripFlight
  split
  case h_1 => exact .refl _
  case h_2 => exact updFlight_parts _
  all_goals exact (brakeMembers_parts.trans (updFlight_parts _)).trans (putFlightState_parts _)

theorem restrainFlight_parts (cause : HoldCause) : PartsStand s (restrainFlight f cause s) := by
  unfold restrainFlight
  split
  case h_1 state =>
    simp only [abortArming, state]
    exact (brakeMembers_parts.trans (updFlight_parts _)).trans (putFlightState_parts _)
  all_goals
    unfold holdFlight
    split
    case h_6 | h_7 => exact (updFlight_parts _).trans (putFlightState_parts _)
    case h_8 | h_9 => exact updFlight_parts _
    all_goals exact .refl _

theorem pathStep_parts (f : FlightId) (s : State) : PartsStand s (pathStep f s) := by
  unfold pathStep
  split
  case h_1 =>
    split
    · unfold movingStep
      dsimp only
      repeat' split
      · exact (closeSegment_parts _).trans (completeMoving_behind _)
      · exact (advance_parts _).trans ((closeSegment_parts _).trans (completeMoving_behind _))
      · exact advance_parts _
    · exact .refl _
  case h_2 =>
    split
    · unfold stoppingStep
      dsimp only
      repeat' split
      · exact (advance_parts _).trans ((closeSegment_parts _).trans (completeStopping_behind _))
      · exact (advance_parts _).trans (putFlightState_parts _)
      · exact advance_parts _
    · exact .refl _
  case h_3 =>
    split
    · unfold dwellStep
      split
      · exact (updFlight_parts _).trans followDecision_parts
      · exact updFlight_parts _
    · exact .refl _
  case h_4 =>
    split
    · unfold armingStep
      dsimp only
      repeat' split
      · exact (updFlight_parts _).trans (tripFlight_parts _)
      · exact updFlight_parts _
      · exact updFlight_parts _
    · exact .refl _
  all_goals exact .refl _

end

/-! ### The other flights' work, with members shared or not -/

/-- From s to t other flights than this have been worked on: an axis changes only as a member of one of them, and then not in its
parameters; this flight's notices stay raised. -/
structure Elsewhere (f : FlightId) (s t : State) : Prop where
  parts : PartsStand s t
  flight : t.flight f = s.flight f
  slots : t.slots = s.slots
  members : ∀ g, (t.flight g).members = (s.flight g).members
  axes : ∀ n, (∀ g, g ≠ f → n ∉ (s.flight g).members) → t.axis n = s.axis n

section
variable {f g : FlightId} {s t u : State}

theorem Elsewhere.refl (f : FlightId) (s : State) : Elsewhere f s s := ⟨.refl _, rfl, rfl, fun _ => rfl, fun _ _ => rfl⟩

theorem Elsewhere.trans (h : Elsewhere f s t) (k : Elsewhere f t u) : Elsewhere f s u :=
  ⟨h.parts.trans k.parts, k.flight.trans h.flight, k.slots.trans h.slots, fun g => (k.members g).trans (h.members g),
    fun n own => (k.axes n fun g ne => by rw [h.members]; exact own g ne).trans (h.axes n own)⟩

theorem freeIndex_elsewhere (k : Nat) : Elsewhere f s { s with freeIndex := k } :=
  ⟨⟨fun _ => rfl, fun _ _ => .refl _⟩, rfl, rfl, fun _ => rfl, fun _ _ => rfl⟩

theorem ExpiryWork.elsewhere (h : ExpiryWork g s t) (parts : PartsStand s t) (ne : g ≠ f) : Elsewhere f s t :=
  ⟨parts, h.work.others f (Ne.symm ne), h.work.motion.slots, h.every_members, fun n own => h.axes n (own g ne)⟩

theorem flightExpiry_elsewhere (late : Station → Bool) (ne : g ≠ f) : Elsewhere f s (flightExpiry late g s) := by
  rcases flightExpiry_cases late g s with ⟨-, e⟩ | ⟨-, k, e | e⟩ <;> rw [e]
  · exact (pathStep_expiryWork g s).elsewhere (pathStep_parts g s) ne
  · exact (freeIndex_elsewhere k).trans (((pathStep_expiryWork g _).trans (restrainFlight_expiryWork g _ _)).elsewhere
      ((pathStep_parts g _).trans (restrainFlight_parts _)) ne)
  · exact (freeIndex_elsewhere k).trans (((restrainFlight_expiryWork g _ _).trans (pathStep_expiryWork g _)).elsewhere
      ((restrainFlight_parts _).trans (pathStep_parts g _)) ne)

theorem flightExpiries_elsewhere (late : Station → Bool) (l : List FlightId) (out : f ∉ l) (s : State) :
    Elsewhere f s (l.foldl (fun t g => flightExpiry late g t) s) := by
  induction l generalizing s with
  | nil => exact .refl f s
  | cons g l ih =>
    obtain ⟨head, tail⟩ := not_or.mp (fun h => out (List.mem_cons.mpr h))
    exact (flightExpiry_elsewhere late (Ne.symm head)).trans (ih tail _)

theorem countSilence_notices (st u : Station) (s : State) :
    ((countSilence st s).port u).flightNotices = (s.port u).flightNotices := by
  unfold countSilence
  repeat' split
  all_goals simp only [State.setSilent_port, State.updPort_port]
  all_goals split <;> rfl

theorem counted_elsewhere (f : FlightId) (s : State) : Elsewhere f s (counted s) := by
  have notices (u : Station) : ((counted s).port u).flightNotices = (s.port u).flightNotices := by
    show ((countSilence .c (countSilence .b (countSilence .a _))).port u).flightNotices = _
    simp only [countSilence_notices]
    rfl
  refine ⟨⟨fun n => by rw [counted_axis], fun u g => ?_⟩, counted_flight s f, ?_, fun g => by rw [counted_flight],
    fun n _ => counted_axis s n⟩
  · rw [notices]; exact .refl _
  · rw [counted_frame]

theorem round_and_scan_elsewhere (f : FlightId) (s : State) : Elsewhere f s (scannerStep (roundStep s)) := by
  rw [scannerStep_frame, roundStep_frame]
  exact ⟨⟨fun _ => rfl, fun _ _ => .refl _⟩, rfl, rfl, fun _ => rfl, fun _ _ => rfl⟩

/-- An expiry is, for one flight, its own expiry between those of the others (03, R44; 06, R120). -/
theorem stepAll_around (f : FlightId) (s : State) :
    ∃ u, Elsewhere f s u ∧ Elsewhere f (flightExpiry (turnsSilent s) f u) (stepAll s) := by
  obtain ⟨pre, post, split, before, behind⟩ := split_at_mem allFlights_nodup (mem_allFlights f)
  refine ⟨_, (counted_elsewhere f s).trans (flightExpiries_elsewhere (turnsSilent s) pre before _), ?_⟩
  rw [stepAll_eq, flown, split, List.foldl_append, List.foldl_cons]
  exact (flightExpiries_elsewhere _ post behind _).trans (round_and_scan_elsewhere f _)

/-- Where the claimer does not fall SILENT, an expiry does a flight's path work alone. -/
theorem stepAll_around_heard
    (heard : ∀ st, (s.flight f).claim = some st → s.silents.get st = true ∨ (s.port st).silence < 249) :
    ∃ u, Elsewhere f s u ∧ Elsewhere f (pathStep f u) (stepAll s) := by
  obtain ⟨u, before, behind⟩ := stepAll_around f s
  refine ⟨u, before, ?_⟩
  rcases flightExpiry_cases (turnsSilent s) f u with ⟨-, e⟩ | ⟨late, -⟩
  · rw [← e]; exact behind
  · rw [before.flight, claim_any_turnsSilent] at late
    obtain ⟨st, claim, active, due⟩ := late
    rcases heard st claim with silent | early
    · simp [silent] at active
    · omega

theorem Elsewhere.startFits {seg : Segment} (h : Elsewhere f s t) : StartFits t f seg ↔ StartFits s f seg :=
  startFits_congr (h.members f) (by rw [h.flight]; exact ⟨rfl, rfl⟩) h.slots fun n _ => h.parts.params n

/-- The set-point of an axis that is a member of no other flight is what this flight's path work makes of it. -/
theorem Elsewhere.axis_behind {n : AxisId} (before : Elsewhere f s u) (behind : Elsewhere f (pathStep f u) t)
    (own : ∀ g, g ≠ f → n ∉ (s.flight g).members) : u.axis n = s.axis n ∧ t.axis n = (pathStep f u).axis n := by
  refine ⟨before.axes n own, behind.axes n fun g ne => ?_⟩
  rw [(pathStep_expiryWork f u).every_members, before.members]
  exact own g ne

end

/-! ### Set-points (04, R64) -/

section
variable {f : FlightId} {s : State} {act : Active}

/-- The member slot of an axis is its place in the member order. -/
theorem slotIn_eq {members : List AxisId} {i : Nat} {n : AxisId} (nodup : members.Nodup) (at_ : members[i]? = some n) :
    slotIn members n = some i := by
  obtain ⟨lt, here⟩ := List.getElem?_eq_some_iff.mp at_
  rw [slotIn, List.findIdx?_eq_some_iff_getElem]
  refine ⟨lt, by simpa using here, fun j less => ?_⟩
  have apart : members[j] ≠ members[i] := fun same => by
    have := (List.Nodup.getElem_inj_iff nodup).mp same
    omega
  simpa [here] using apart

/-- An advance writes the interpolated set-point of a member that is not FAULTED (04, R64). -/
theorem advance_setPoint {i : Nat} {n : AxisId} (nodup : (s.flight f).members.Nodup)
    (at_ : (s.flight f).members[i]? = some n) (sound : (s.axis n).state ≠ .faulted) (long : act.pathLen ≠ 0) :
    ((advance f act s).axis n).setPoint = setPointAt act i := by
  have member : slotIn ((s.updFlight f fun r => { r with active := some act }).flight f).members n = some i := by
    rw [State.updFlight_flight_same]; exact slotIn_eq nodup at_
  rw [advance, writeSetPoints, if_neg long, State.mapAxes_axis]
  simp only [member]
  exact congrArg Axis.setPoint (if_neg sound)

/-! ### Notices of a completion (02, R33, R35, R37) -/

theorem closeSegment_done (u : Station) : ((closeSegment f act s).port u).flightNotices[f].done = true := by
  have raised : ((raiseDone f s).port u).flightNotices[f].done = true := by
    rw [raiseDone, raiseFlight_notices, if_pos rfl]
  exact (((recycleCopy_parts act.seg).trans (updFlight_parts _)).notices u f).done raised

theorem closeSegment_lost (recycle : act.seg.recycle = true) (full : 8 ≤ (s.flight f).queue.length) (u : Station) :
    ((closeSegment f act s).port u).flightNotices[f].lost = true := by
  have dropped : recycleCopy f act.seg (raiseDone f s) = raiseLost f (raiseDone f s) := by
    rw [recycleCopy, if_pos recycle, if_neg (by simpa [queueCapacity] using full)]
  show ((recycleCopy f act.seg (raiseDone f s)).port u).flightNotices[f].lost = true
  rw [dropped, raiseLost, raiseFlight_notices, if_pos rfl]

theorem closeSegment_startFits {seg : Segment} : StartFits (closeSegment f act s) f seg ↔ StartFits s f seg :=
  startFits_congr (by rw [closeSegment_flight_same]; rfl) (by rw [closeSegment_flight_same]; exact ⟨rfl, rfl⟩)
    (closeSegment_work f act s).motion.slots fun n _ => by rw [State.axis, closeSegment_axes]; rfl

/-- The notices that a completion raises, on every port. -/
structure CompletionNotified (f : FlightId) (act : Active) (s t : State) : Prop where
  ends : ∀ u, ((t.port u).flightNotices[f]).done = true ∧ ((t.port u).flightNotices[f]).state = true
  lost : act.seg.recycle = true → 8 ≤ (s.flight f).queue.length → ∀ u, ((t.port u).flightNotices[f]).lost = true

theorem CompletionNotified.later {t v : State} (h : CompletionNotified f act s t) (k : PartsStand t v) :
    CompletionNotified f act s v :=
  ⟨fun u => ⟨(k.notices u f).done (h.ends u).1, (k.notices u f).state (h.ends u).2⟩,
    fun recycle full u => (k.notices u f).lost (h.lost recycle full u)⟩

theorem completeMoving_notified (moving : (s.flight f).state = .moving) :
    CompletionNotified f act s (completeMoving f act s) := by
  have behind := completeMoving_behind (f := f) (s := s) act
  refine ⟨fun u => ⟨(behind.notices u f).done (closeSegment_done u), ?_⟩,
    fun recycle full u => (behind.notices u f).lost (closeSegment_lost recycle full u)⟩
  by_cases none : act.seg.dwell = 0
  · rw [completeMoving_follow none]
    exact (followDecision_changes (by rw [closeSegment_flight_same]; simp [Flight.closed, moving])).2 u
  · rw [completeMoving, if_neg none, putFlightState_notices, if_pos rfl]

theorem completeMoving_rejects {seg : Segment} {rest : List Segment} (moving : (s.flight f).state = .moving)
    (none : act.seg.dwell = 0) (queue : recycledQueue act (s.flight f).queue = seg :: rest) (follow : seg.start = .follow)
    (unfit : ¬StartFits s f seg) (u : Station) : ((completeMoving f act s).port u).flightNotices[f].reject = true := by
  rw [completeMoving_follow none]
  exact followDecision_rejects (by rw [closeSegment_flight_same]; simp [Flight.closed, moving])
    (by rw [closeSegment_flight_same]; exact queue) follow (fun fits => unfit (closeSegment_startFits.mp fits)) u

theorem completeStopping_notified : CompletionNotified f act s (completeStopping f act s) := by
  have behind := completeStopping_behind (f := f) (s := s) act
  refine ⟨fun u => ⟨(behind.notices u f).done (closeSegment_done u), ?_⟩,
    fun recycle full u => (behind.notices u f).lost (closeSegment_lost recycle full u)⟩
  unfold completeStopping
  dsimp only
  split <;> rw [putFlightState_notices, if_pos rfl]

theorem advance_startFits {seg : Segment} : StartFits (advance f act s) f seg ↔ StartFits s f seg :=
  startFits_congr (by rw [advance_flight_same]) (by rw [advance_flight_same]; exact ⟨rfl, rfl⟩)
    (advance_work f act s).motion.slots fun n _ => (advance_parts act).params n

end

/-! ### STOPPING -/

section
variable {f : FlightId} {s : State} {act : Active} {a : Nat}

/-- The path state of a STOPPING flight behind an expiry (03, R58). -/
def Active.slowed (act : Active) (a : Nat) : Active := act.advanced (act.speed - a)

/-- The work for a STOPPING flight: its completion, its landing at rest, or its advance (03, R58, R59; 05, R88). -/
theorem pathStep_stopping_cases (state : (s.flight f).state = .stopping) (active : (s.flight f).active = some act)
    (stop : act.aStop = some a) :
    pathStep f s =
      if (act.slowed a).pos = act.pathLen then completeStopping f (act.slowed a) (advance f (act.slowed a) s)
      else if act.speed - a = 0 then putFlightState f .held (advance f { act.slowed a with aStop := none } s)
      else advance f (act.slowed a) s := by
  have speed : stoppingSpeed act = act.speed - a := by rw [stoppingSpeed, stop]; rfl
  simp only [pathStep, state, active, stoppingStep, speed]
  rfl

/-- The expiry writes the set-points of a STOPPING flight's members (04, R64). -/
theorem pathStep_stopping_setPoint {i : Nat} {n : AxisId} (state : (s.flight f).state = .stopping)
    (active : (s.flight f).active = some act) (stop : act.aStop = some a) (nodup : (s.flight f).members.Nodup)
    (at_ : (s.flight f).members[i]? = some n) (sound : (s.axis n).state ≠ .faulted) (long : act.pathLen ≠ 0) :
    ((pathStep f s).axis n).setPoint = setPointAt (act.slowed a) i := by
  rw [pathStep_stopping_cases state active stop]
  split
  · rw [State.axis, completeStopping_axes]
    exact advance_setPoint nodup at_ sound long
  · split
    · exact advance_setPoint (act := { act.slowed a with aStop := none }) nodup at_ sound long
    · exact advance_setPoint nodup at_ sound long

/-- A STOPPING flight that lands at rest raises STATE; one that comes to the end of its path raises the notices of a completion. -/
theorem pathStep_stopping_notified (state : (s.flight f).state = .stopping) (active : (s.flight f).active = some act)
    (stop : act.aStop = some a) :
    ((act.slowed a).pos = act.pathLen → CompletionNotified f act s (pathStep f s)) ∧
      (act.speed - a = 0 → ∀ u, ((pathStep f s).port u).flightNotices[f].state = true) := by
  rw [pathStep_stopping_cases state active stop]
  have completed : CompletionNotified f act s
      (completeStopping f (act.slowed a) (advance f (act.slowed a) s)) := by
    obtain ⟨ends, lost⟩ := completeStopping_notified (f := f) (act := act.slowed a) (s := advance f (act.slowed a) s)
    rw [advance_flight_same] at lost
    exact ⟨ends, lost⟩
  refine ⟨fun arrives => by rw [if_pos arrives]; exact completed, fun rests u => ?_⟩
  split
  · exact (completed.ends u).2
  · rw [putFlightState_notices, if_pos rfl]

end

/-- Settles O40: the path work of the STOPPING flight between the other flights' work. -/
theorem expiryAdvancesStopping : Obligations.ExpiryAdvancesStopping := by
  intro f act a s running state active stop heard v next
  have run : exec .stepExpiry s = .next (stepAll s) := by
    show execStepExpiry s = _
    rw [execStepExpiry, if_pos running]
  obtain ⟨u, before, behind⟩ := stepAll_around_heard heard
  have own := before.flight
  rw [← own] at state active
  obtain ⟨completes, rests⟩ := pathStep_stopping_notified state active stop
  have arrived (arrives : next.pos = act.pathLen) : CompletionNotified f act s (stepAll s) := by
    obtain ⟨ends, lost⟩ := (completes arrives).later behind.parts
    rw [own] at lost
    exact ⟨ends, lost⟩
  refine ⟨_, run, ?_, fun lands u => ?_, fun arrives u => ((arrived arrives).ends u).1, fun arrives => (arrived arrives).lost,
    fun i n nodup at_ sound alone long => ?_⟩
  · rw [behind.flight, pathStep_stopping state active stop, own]
  · rcases lands with arrives | rest
    · exact ((arrived arrives).ends u).2
    · exact (behind.parts.notices u f).state (rests rest u)
  · obtain ⟨same, last⟩ := before.axis_behind behind alone
    rw [last]
    rw [← own] at nodup at_
    exact pathStep_stopping_setPoint state active stop nodup at_ (by rw [same]; exact sound) long

/-! ### MOVING -/

section
variable {f : FlightId} {s t u w : State} {act : Active}

/-- The path state of a MOVING flight with path left, behind an expiry (03, R54 to R56). -/
def Active.driven (act : Active) : Active := act.advanced (movingSpeed act (act.pathLen - act.pos))

/-- The work for a MOVING flight: its completion at the end of the path, at once or behind an advance, or its advance (03, R53 to
R56). -/
theorem pathStep_moving_cases (state : (s.flight f).state = .moving) (active : (s.flight f).active = some act)
    (within : act.pos ≤ act.pathLen) :
    pathStep f s =
      if act.pos = act.pathLen then completeMoving f act s
      else if act.nextPos = act.pathLen then completeMoving f act.driven (advance f act.driven s)
      else advance f act.driven s := by
  have ended : act.pathLen - act.pos = 0 ↔ act.pos = act.pathLen := by omega
  simp only [pathStep, state, active, movingStep, ended]
  by_cases arrived : act.pos = act.pathLen
  · simp only [arrived, if_true]
  · rw [if_neg arrived, if_neg arrived, nextPos_underway arrived]
    rfl

/-- The expiry writes the set-points of a MOVING flight's members, where it has path left (04, R64). -/
theorem pathStep_moving_setPoint {i : Nat} {n : AxisId} (state : (s.flight f).state = .moving)
    (active : (s.flight f).active = some act) (within : act.pos ≤ act.pathLen) (nodup : (s.flight f).members.Nodup)
    (at_ : (s.flight f).members[i]? = some n) (sound : (s.axis n).state ≠ .faulted) (long : act.pathLen ≠ 0) :
    ((pathStep f s).axis n).setPoint =
      if act.pos = act.pathLen then (s.axis n).setPoint else setPointAt act.driven i := by
  rw [pathStep_moving_cases state active within]
  split
  · rw [State.axis, completeMoving_axes]; rfl
  · split
    · rw [State.axis, completeMoving_axes]
      exact advance_setPoint nodup at_ sound long
    · exact advance_setPoint nodup at_ sound long

/-- A MOVING flight that comes to the end of its path raises the notices of a completion, and REJECT where a FOLLOW record fails its
start checks (02, R33, R35, R37, R39). -/
theorem pathStep_moving_notified (state : (s.flight f).state = .moving) (active : (s.flight f).active = some act)
    (within : act.pos ≤ act.pathLen) (arrives : act.nextPos = act.pathLen) :
    CompletionNotified f act s (pathStep f s) ∧
      (act.seg.dwell = 0 → ∀ seg rest, recycledQueue act (s.flight f).queue = seg :: rest → seg.start = .follow →
        ¬StartFits s f seg → ∀ u, ((pathStep f s).port u).flightNotices[f].reject = true) := by
  rw [pathStep_moving_cases state active within]
  split
  · exact ⟨completeMoving_notified state, fun none seg rest queue follow unfit =>
      completeMoving_rejects state none queue follow unfit⟩
  · have moving : ((advance f act.driven s).flight f).state = .moving := by rw [advance_flight_same]; exact state
    obtain ⟨ends, lost⟩ := completeMoving_notified (act := act.driven) moving
    rw [advance_flight_same] at lost
    refine ⟨⟨ends, lost⟩, fun none seg rest queue follow unfit => ?_⟩
    exact completeMoving_rejects moving none (by rw [advance_flight_same]; exact queue) follow
      fun fits => unfit (advance_startFits.mp fits)

/-- The record of a MOVING flight is judged ahead of the other flights' work; its members' axes are read behind it, where no other
flight has them. -/
theorem MovedRecord.elsewhere {r : Flight} (before : Elsewhere f s u)
    (axes : MembersUnshared f s → ∀ n ∈ (s.flight f).members, t.axis n = w.axis n) (moved : MovedRecord f act u w r) :
    MovedRecord f act s t r := by
  have fits (seg : Segment) : (TargetsFit u f seg ∧ (seg.loadCheck = true → LoadsFit u f)) ↔
      (TargetsFit s f seg ∧ (seg.loadCheck = true → LoadsFit s f)) := before.startFits
  have unshared : MembersUnshared f u ↔ MembersUnshared f s := by simp only [MembersUnshared, before.members]
  unfold MovedRecord at moved ⊢
  simp only [fits, unshared] at moved
  rw [before.flight] at moved
  refine ⟨moved.1, fun arrives => ?_⟩
  obtain ⟨dwells, rests, follows⟩ := moved.2 arrives
  refine ⟨dwells, rests, fun none seg rest queue follow => ?_⟩
  obtain ⟨fit, unfit⟩ := follows none seg rest queue follow
  refine ⟨fun passes alone => ?_, unfit⟩
  have same : (s.flight f).members.map w.axis = (s.flight f).members.map t.axis :=
    List.map_congr_left fun n hn => (axes alone n hn).symm
  rw [← same]
  exact fit passes alone

/-- A step expiry leaves the links, the lines, the slots and the enables alone. -/
theorem stepAll_kept (s : State) :
    (stepAll s).links = s.links ∧ (stepAll s).lines = s.lines ∧ (stepAll s).slots = s.slots ∧
      (stepAll s).enables = s.enables := by
  have rest := (flown_worked s).rest
  have links : (flown s).links = s.links := rest.links.trans (by rw [counted_frame])
  have lines : (flown s).lines = s.lines := rest.lines.trans (by rw [counted_frame])
  have enables : (flown s).enables = s.enables := rest.enables.trans (by rw [counted_frame])
  have slots := flown_slots s
  rw [stepAll_eq]
  generalize flown s = v at links lines enables slots
  rw [scannerStep_frame, roundStep_frame]
  exact ⟨links, lines, slots, enables⟩

end

/-- Settles O39: the path work of the MOVING flight between the other flights' work. -/
theorem expiryAdvancesMoving : Obligations.ExpiryAdvancesMoving := by
  intro f act s running state active within heard v next
  have run : exec .stepExpiry s = .next (stepAll s) := by
    show execStepExpiry s = _
    rw [execStepExpiry, if_pos running]
  obtain ⟨links, lines, slots, enables⟩ := stepAll_kept s
  obtain ⟨u, before, behind⟩ := stepAll_around_heard heard
  have own := before.flight
  rw [← own] at state active
  refine ⟨_, run, (stepAll_rest s).1, links, lines, slots, enables, fun alone i n nodup at_ sound long => ?_, ?_,
    fun arrives => ?_⟩
  · obtain ⟨same, last⟩ := before.axis_behind behind (alone n (List.mem_of_getElem? at_))
    rw [← own] at nodup at_
    rw [last, pathStep_moving_setPoint state active within nodup at_ (by rw [same]; exact sound) long, same]
    by_cases arrived : act.pos = act.pathLen
    · rw [if_pos arrived, if_pos arrived]
    · have pos : next.pos = act.driven.pos := congrArg (act.pos + ·) (if_neg arrived)
      rw [if_neg arrived, if_neg arrived, pos]
      rfl
  · rw [behind.flight]
    exact (pathStep_moving state active within).elsewhere before fun alone n hn =>
      (before.axis_behind behind (alone n hn)).2
  · obtain ⟨notified, rejects⟩ := pathStep_moving_notified state active within arrives
    obtain ⟨ends, lost⟩ := notified.later behind.parts
    rw [own] at lost rejects
    exact ⟨ends, lost, fun none seg rest queue follow unfit u =>
      (behind.parts.notices u f).reject (rejects none seg rest queue follow (fun fits => unfit (before.startFits.mp fits)) u)⟩

end Sys2Proof.Machine
end

section
namespace Sys2Proof.Machine

/-! ## What a command makes of an active segment (02, R34; 03, R45, R51, R61)

A command first works on the segment that a flight has, by advances, or rewrites the records that a start reads; then it may start a
segment, and behind a start nothing changes what the start has read. -/

/-! ### Records whose segment stands -/

/-- Every active segment of the record behind is the one before, gone on or not: its start, L and limits stand. -/
def Flight.Keeps (r r' : Flight) : Prop :=
  ∀ b, r'.active = some b → ∃ a pos speed stop, r.active = some a ∧
    b = { a with pos := pos, speed := speed, aStop := stop } ∧ a.pos ≤ pos

/-- The members and the hold deceleration stand, and every active segment of the record behind is the one before, held or not. -/
structure Flight.Carries (r r' : Flight) : Prop where
  members : r'.members = r.members
  decel : r'.holdDecel = r.holdDecel
  active : ∀ b, r'.active = some b → ∃ a stop, r.active = some a ∧ b = { a with aStop := stop }

section
variable {r r' r'' : Flight}

theorem Flight.Keeps.of_same (h : r'.active = r.active) : r.Keeps r' := fun b hb => ⟨b, _, _, _, h ▸ hb, rfl, le_rfl⟩

theorem Flight.Keeps.of_none (h : r'.active = none) : r.Keeps r' := fun b hb => by rw [h] at hb; cases hb

theorem Flight.Keeps.of_some {a : Active} {pos speed : Nat} {stop : Option Nat} (before : r.active = some a)
    (behind : r'.active = some { a with pos := pos, speed := speed, aStop := stop }) (on : a.pos ≤ pos) : r.Keeps r' :=
  fun _ hc => ⟨a, pos, speed, stop, before, Option.some.inj (hc.symm.trans behind), on⟩

theorem Flight.Keeps.trans (h : r.Keeps r') (k : r'.Keeps r'') : r.Keeps r'' := fun c hc => by
  obtain ⟨b, pos, speed, stop, hb, rfl, on⟩ := k c hc
  obtain ⟨a, _, _, _, ha, rfl, on'⟩ := h b hb
  exact ⟨a, pos, speed, stop, ha, rfl, on'.trans on⟩

theorem Flight.Carries.keeps (h : r.Carries r') : r.Keeps r' := fun b hb => by
  obtain ⟨a, stop, ha, same⟩ := h.active b hb
  exact ⟨a, _, _, stop, ha, same, le_rfl⟩

theorem Flight.Carries.of_same (members : r'.members = r.members) (decel : r'.holdDecel = r.holdDecel)
    (active : r'.active = r.active) : r.Carries r' := ⟨members, decel, fun b hb => ⟨b, _, active ▸ hb, rfl⟩⟩

theorem Flight.Carries.afterTrip (r : Flight) (cause : TripCause) : r.Carries (r.afterTrip cause) := by
  unfold Flight.afterTrip
  split
  all_goals exact .of_same rfl rfl rfl

theorem Flight.Carries.afterHold (r : Flight) (cause : HoldCause) : r.Carries (r.afterHold cause) := by
  unfold Flight.afterHold
  split
  case h_6 =>
    refine ⟨rfl, rfl, fun b hb => ?_⟩
    obtain ⟨a, ha, rfl⟩ := Option.map_eq_some_iff.mp hb
    exact ⟨a, _, ha, rfl⟩
  all_goals exact .of_same rfl rfl rfl

theorem Flight.Carries.afterRestraint (r : Flight) (cause : HoldCause) : r.Carries (r.afterRestraint cause) := by
  unfold Flight.afterRestraint Flight.afterAbort
  split
  · exact .of_same rfl rfl rfl
  · exact .afterHold r cause

end

/-! ### A segment that a start makes stands behind the start -/

/-- The segment is one that a start makes from the members' records in t (02, R34), held behind it or not. -/
def Active.StartedIn (b : Active) (f : FlightId) (t : State) : Prop :=
  ∃ seg byCue stop, b = { activeOf (t.memberAxes f) (t.flight f).holdDecel seg byCue with aStop := stop }

/-- What a start reads of an axis's record has not changed. -/
def Axis.SameRope (a b : Axis) : Prop := b.setPoint = a.setPoint ∧ b.params = a.params

/-- A start reads the members' set-points, their speed and acceleration limits, and the hold deceleration. -/
theorem activeOf_congr {members : List AxisId} {x y : AxisId → Axis} (h : ∀ n ∈ members, (x n).SameRope (y n)) (decel : Nat)
    (seg : Segment) (byCue : Bool) : activeOf (members.map y) decel seg byCue = activeOf (members.map x) decel seg byCue := by
  have read {α : Type} {p : Axis → α} (same : ∀ n ∈ members, p (y n) = p (x n)) :
      (members.map y).map p = (members.map x).map p := by
    simpa using same
  have points := read (p := Axis.setPoint) fun n hn => (h n hn).1
  have vmax := read (p := Axis.vmax) fun n hn => by rw [Axis.vmax, (h n hn).2]; rfl
  have amax := read (p := Axis.amax) fun n hn => by rw [Axis.amax, (h n hn).2]; rfl
  simp only [activeOf, points, vmax, amax]

/-- From s to t nothing that a start of this flight reads has changed; its segment stands, held or not, or is one that a start has
made. -/
structure SegmentCarried (f : FlightId) (s t : State) : Prop where
  members : (t.flight f).members = (s.flight f).members
  decel : (t.flight f).holdDecel = (s.flight f).holdDecel
  ropes : ∀ n ∈ (s.flight f).members, (s.axis n).SameRope (t.axis n)
  active : ∀ b, (t.flight f).active = some b →
    (∃ a stop, (s.flight f).active = some a ∧ b = { a with aStop := stop }) ∨ b.StartedIn f t

/-- A command between s and t: the segment that a flight has stands up to a state behind which only a start can make another. -/
def SegmentSettled (f : FlightId) (s t : State) : Prop := ∃ u, (s.flight f).Keeps (u.flight f) ∧ SegmentCarried f u t

section
variable {f g : FlightId} {s t u : State}

theorem SegmentCarried.startedIn (h : SegmentCarried f s t) {a : Active} (started : a.StartedIn f s) (stop : Option Nat) :
    ({ a with aStop := stop } : Active).StartedIn f t := by
  obtain ⟨seg, byCue, _, rfl⟩ := started
  have read : activeOf (t.memberAxes f) (t.flight f).holdDecel seg byCue =
      activeOf (s.memberAxes f) (s.flight f).holdDecel seg byCue := by
    rw [State.memberAxes, h.members, h.decel]
    exact activeOf_congr h.ropes _ _ _
  exact ⟨seg, byCue, stop, by rw [read]⟩

theorem SegmentCarried.trans (h : SegmentCarried f s t) (k : SegmentCarried f t u) : SegmentCarried f s u := by
  refine ⟨k.members.trans h.members, k.decel.trans h.decel, fun n hn => ?_, fun c hc => ?_⟩
  · obtain ⟨point, params⟩ := h.ropes n hn
    obtain ⟨point', params'⟩ := k.ropes n (h.members ▸ hn)
    exact ⟨point'.trans point, params'.trans params⟩
  · rcases k.active c hc with ⟨b, stop, hb, rfl⟩ | started
    · rcases h.active b hb with ⟨a, _, ha, rfl⟩ | started
      · exact .inl ⟨a, stop, ha, rfl⟩
      · exact .inr (k.startedIn started stop)
    · exact .inr started

theorem SegmentCarried.of_record (record : (s.flight f).Carries (t.flight f))
    (ropes : ∀ n ∈ (s.flight f).members, (s.axis n).SameRope (t.axis n)) : SegmentCarried f s t :=
  ⟨record.members, record.decel, ropes, fun b hb => .inl (record.active b hb)⟩

theorem FlightStands.carried (h : FlightStands f s t) : SegmentCarried f s t :=
  .of_record (by rw [h.flight]; exact .of_same rfl rfl rfl) fun n hn => by rw [h.axes n hn]; exact ⟨rfl, rfl⟩

theorem SegmentCarried.of_tables (flights : t.flights = s.flights) (axes : t.axes = s.axes) : SegmentCarried f s t := by
  have flight (g : FlightId) : t.flight g = s.flight g := by simp [State.flight, flights]
  have axis (n : AxisId) : t.axis n = s.axis n := by simp [State.axis, axes]
  exact .of_record (by rw [flight]; exact .of_same rfl rfl rfl) fun n _ => by rw [axis]; exact ⟨rfl, rfl⟩

theorem Quiet.carried (h : Quiet s t) : SegmentCarried f s t := .of_tables h.flights h.axes

theorem SegmentCarried.refl (f : FlightId) (s : State) : SegmentCarried f s s := .of_tables rfl rfl

/-- Work on a flight that changes nothing that a start reads, and its segment at most by a hold. -/
theorem FlightWork.carried (work : FlightWork g s t) (record : (s.flight g).Carries (t.flight g))
    (ropes : ∀ n, (s.axis n).SameRope (t.axis n)) : SegmentCarried f s t := by
  refine .of_record ?_ fun n _ => ropes n
  by_cases e : f = g
  · subst e; exact record
  · rw [work.others f e]; exact .of_same rfl rfl rfl

/-- Every active segment behind is the one that its flight had before. -/
def SegmentsStand (s t : State) : Prop := ∀ f, (s.flight f).Keeps (t.flight f)

theorem SegmentsStand.trans (h : SegmentsStand s t) (k : SegmentsStand t u) : SegmentsStand s u := fun f => (h f).trans (k f)

theorem SegmentsStand.of_flights (flights : t.flights = s.flights) : SegmentsStand s t := fun f =>
  .of_same (by simp [State.flight, flights])

theorem SegmentsStand.settled (h : SegmentsStand s t) : SegmentSettled f s t := ⟨t, h f, .refl f t⟩

/-- Work on a flight whose segment stands. -/
theorem FlightWork.segments (work : FlightWork g s t) (record : (s.flight g).Keeps (t.flight g)) : SegmentsStand s t := by
  intro f
  by_cases e : f = g
  · subst e; exact record
  · rw [work.others f e]; exact .of_same rfl

theorem FlightWork.settled (work : FlightWork g s t) (record : (s.flight g).Keeps (t.flight g)) : SegmentSettled f s t :=
  (work.segments record).settled

theorem SegmentCarried.settled (h : SegmentCarried f s t) : SegmentSettled f s t := ⟨s, .of_same rfl, h⟩

theorem Quiet.settled (h : Quiet s t) : SegmentSettled f s t := h.carried.settled

theorem SegmentSettled.refl (f : FlightId) (s : State) : SegmentSettled f s s := (SegmentCarried.refl f s).settled

theorem SegmentSettled.carried (h : SegmentSettled f s t) (k : SegmentCarried f t u) : SegmentSettled f s u := by
  obtain ⟨v, keeps, carried⟩ := h
  exact ⟨v, keeps, carried.trans k⟩

theorem SegmentSettled.behind (k : SegmentSettled f t u) (h : (s.flight f).Keeps (t.flight f)) : SegmentSettled f s u := by
  obtain ⟨v, keeps, carried⟩ := k
  exact ⟨v, h.trans keeps, carried⟩

theorem SegmentSettled.behind_quiet (k : SegmentSettled f t u) (h : Quiet s t) : SegmentSettled f s u :=
  k.behind (.of_same (by simp [State.flight, h.flights]))

/-- A record rewritten but for its segment. -/
theorem updFlight_settled {x : Flight → Flight} (same : ∀ r, (x r).active = r.active) : SegmentSettled f s (s.updFlight g x) :=
  (updFlight_work g x s).settled (.of_same (by rw [State.updFlight_flight_same, same]))

/-! ### Holds, trips and starts -/

theorem brakedDown_rope (a : Axis) : a.SameRope a.brakedDown := by
  unfold Axis.brakedDown
  split <;> exact ⟨rfl, rfl⟩

theorem holdFlight_carried (cause : HoldCause) : SegmentCarried f s (holdFlight g cause s) :=
  (holdFlight_work g cause s).carried (by rw [holdFlight_flight_same]; exact .afterHold _ _)
    fun n => by rw [holdFlight_axis]; exact ⟨rfl, rfl⟩

theorem tripFlight_carried (cause : TripCause) : SegmentCarried f s (tripFlight g cause s) := by
  refine (tripFlight_work g cause s).carried (by rw [tripFlight_flight_same]; exact .afterTrip _ _) fun n => ?_
  rw [tripFlight_axis]
  split
  · exact brakedDown_rope _
  · exact ⟨rfl, rfl⟩

theorem restrainFlight_carried (cause : HoldCause) : SegmentCarried f s (restrainFlight g cause s) := by
  refine (restrainFlight_work g cause s).carried (by rw [restrainFlight_flight_same]; exact .afterRestraint _ _) fun n => ?_
  rw [restrainFlight_axis]
  split
  · exact brakedDown_rope _
  · exact ⟨rfl, rfl⟩

theorem putFlightState_carried (x : FlightState) : SegmentCarried f s (putFlightState g x s) :=
  (putFlightState_work g x s).carried (by rw [putFlightState_flight_same]; exact .of_same rfl rfl rfl) fun _ => ⟨rfl, rfl⟩

/-- The start procedure rejects the head and leaves the segment, or starts the head. -/
theorem startHead_carried (byCue : Bool) : SegmentCarried f s (startHead byCue g s).1 := by
  have work := startHead_work byCue g s
  have axes := startHead_axes byCue g s
  cases queue : (s.flight g).queue with
  | nil => rw [startHead_empty queue]; exact .refl f s
  | cons seg rest =>
    have ropes (n : AxisId) : (s.axis n).SameRope ((startHead byCue g s).1.axis n) := by
      rw [State.axis, State.axis, axes]; exact ⟨rfl, rfl⟩
    by_cases fits : StartFits s g seg
    · by_cases e : f = g
      · subst e
        have record := startHead_flight_fits (byCue := byCue) queue fits
        refine ⟨by rw [record]; rfl, by rw [record]; rfl, fun n _ => ropes n, fun b hb => .inr ⟨seg, byCue, none, ?_⟩⟩
        rw [memberAxes_congr (by rw [record]; rfl) axes]
        rw [record] at hb ⊢
        exact (Option.some.inj hb).symm
      · exact .of_record (by rw [work.others f e]; exact .of_same rfl rfl rfl) fun n _ => ropes n
    · exact work.carried (by rw [startHead_flight_unfit queue fits]; exact .of_same rfl rfl rfl) ropes

theorem followDecision_carried : SegmentCarried f s (followDecision g s) := by
  unfold followDecision
  repeat' split
  · exact putFlightState_carried _
  · exact startHead_carried _
  · exact putFlightState_carried _

/-! ### The authority unit, the reflex table and the lines -/

theorem SegmentCarried.foldl {α : Type} (l : List α) (step : State → α → State)
    (h : ∀ s, ∀ a ∈ l, SegmentCarried f s (step s a)) (s : State) : SegmentCarried f s (l.foldl step s) := by
  induction l generalizing s with
  | nil => exact .refl f s
  | cons a l ih => exact (h s a List.mem_cons_self).trans (ih (fun t b hb => h t b (List.mem_cons_of_mem _ hb)) _)

theorem takeInAnyOrder_carried {α : Type} {l : List α} {act : α → State → State}
    (h : ∀ a s, SegmentCarried f s (act a s)) : SegmentCarried f s (takeInAnyOrder l act s) :=
  takeInAnyOrder_keeps (SegmentCarried f s) l act s (fun t k ht => ht.trans (freeIndex_quiet k t).carried)
    (fun a _ t ht => ht.trans (h a t)) (.refl f s)

theorem recomputeEnable_carried (st : Station) : SegmentCarried f s (recomputeEnable st s) := by
  have stored : SegmentCarried f s (s.setEnable st (enableOf s st)) := (setEnable_quiet st _ s).carried
  unfold recomputeEnable
  dsimp only
  split
  · refine stored.trans (.foldl _ _ (fun t g _ => ?_) _)
    split
    · exact restrainFlight_carried _
    · exact .refl f t
  · exact stored

theorem cueFlight_carried : SegmentCarried f s (cueFlight g s) := by
  unfold cueFlight
  dsimp only
  repeat' split
  · exact startHead_carried _
  all_goals exact .refl f s

theorem takeEffect_carried (e : Effect) (s : State) : SegmentCarried f s (takeEffect e s) := by
  cases e with
  | hold g cause => exact holdFlight_carried _
  | trip g cause => exact tripFlight_carried _
  | cue g => exact cueFlight_carried
  | recompute st => exact recomputeEnable_carried _

theorem sourceEvent_carried (src : Source) (occurs : Condition → Bool) (recomputes : Bool) :
    SegmentCarried f s (sourceEvent src occurs recomputes s) := takeInAnyOrder_carried takeEffect_carried

theorem clearEntry_carried (i : LinkId) : SegmentCarried f s (clearEntry i s) := by
  have cleared : SegmentCarried f s (s.setLink i none) := (setLink_quiet i none s).carried
  unfold clearEntry
  dsimp only
  split
  · exact cleared.trans (recomputeEnable_carried _)
  · exact cleared

theorem acceptChange_carried (n : LineId) (level : Level) : SegmentCarried f s (acceptChange n level s) :=
  (Quiet.carried ((updLine_quiet _ _ _).before rfl (mapPorts_quiet _ _))).trans (sourceEvent_carried _ _ _)

theorem settleLine_carried (n : LineId) (s : State) : SegmentCarried f s (settleLine n s) :=
  (updLine_quiet _ _ _).carried.trans (sourceEvent_carried _ _ _)

theorem takeRaw_carried (n : LineId) (s : State) : SegmentCarried f s (takeRaw n s) := by
  unfold takeRaw
  repeat' split
  · exact settleLine_carried _ _
  · exact .refl f s
  · exact acceptChange_carried _ _

theorem rawChange_carried (n : LineId) (level : Level) : SegmentCarried f s (rawChange n level s) := by
  have moved : SegmentCarried f s (s.updLine n fun l => { l with raw := level }) := (updLine_quiet _ _ _).carried
  unfold rawChange filterRaw
  dsimp only
  repeat' split
  · exact .refl f s
  · exact moved
  · exact moved
  · exact moved.trans (updLine_quiet _ _ _).carried
  · exact moved.trans (takeRaw_carried _ _)

theorem writeFilters_carried (w : Half) : SegmentCarried f s (writeFilters w s) := by
  unfold writeFilters
  dsimp only
  refine .trans ?_ (takeInAnyOrder_carried takeRaw_carried)
  exact .of_tables rfl rfl

theorem newResult_carried (k : SlotId) (raw : Nat) (origin : Origin) : SegmentCarried f s (newResult k raw origin s) := by
  unfold newResult
  dsimp only
  refine .trans ?_ (sourceEvent_carried _ _ _)
  exact .of_tables rfl rfl

end

/-! ### Requests -/

section
variable {f : FlightId} {s : State}

theorem Answers.settled {r : State × Answer} (h : Answers s r (SegmentSettled f s)) : SegmentSettled f s r.1 := by
  rcases h with ⟨_, -, rfl⟩ | ⟨settled, -⟩
  · exact .refl f s
  · exact settled

theorem serveClaim_settled (st : Station) (flight take : Byte) : SegmentSettled f s (serveClaim st flight take s).1 := by
  have claimed (g : FlightId) : SegmentSettled f s (setClaim g (some st) s) := updFlight_settled fun _ => rfl
  unfold serveClaim
  repeat' split
  any_goals exact .refl f s
  all_goals exact claimed _

theorem serveRelease_settled (st : Station) (flight : Byte) : SegmentSettled f s (serveRelease st flight s).1 := by
  unfold serveRelease
  repeat' split
  any_goals exact .refl f s
  exact updFlight_settled fun _ => rfl

theorem serveBind_settled (st : Station) (flight : Byte) (axes : List Byte) :
    SegmentSettled f s (serveBind st flight axes s).1 := by
  unfold serveBind
  repeat' split
  any_goals exact .refl f s
  rename_i g ns _ _ _ state _ _
  refine (bindMembers_work g ns s).settled ?_
  rw [bindMembers_flight_same g ns s (by tauto)]
  exact .of_same rfl

theorem serveUnbind_settled (st : Station) (flight : Byte) : SegmentSettled f s (serveUnbind st flight s).1 := by
  refine Answers.settled (driving_answers fun g _ => ?_)
  split
  · exact .accept ((unbindMembers_work g s).settled (.of_same (by rw [unbindMembers_flight_same])))
  · exact .refuse (by decide)

theorem serveConfigureAxis_settled (st : Station) (axis address : Byte) (lower upper vmax : Word) (amax : Half)
    (window : Word) (slot : Byte) :
    SegmentSettled f s (serveConfigureAxis st axis address lower upper vmax amax window slot s).1 := by
  unfold serveConfigureAxis
  split
  · dsimp only
    repeat' split
    any_goals exact .refl f s
    refine ⟨_, .of_same ?_, .refl f _⟩
    unfold accept configureAxis
    dsimp only
    split <;> rfl
  · exact .refl f s

theorem serveSetFlightLimits_settled (st : Station) (flight : Byte) (decel lo hi : Half) :
    SegmentSettled f s (serveSetFlightLimits st flight decel lo hi s).1 := by
  unfold serveSetFlightLimits
  split
  · exact .refl f s
  · exact Answers.settled (driving_answers fun g _ => .accept (updFlight_settled fun _ => rfl))

theorem serveArm_settled (st : Station) (flight : Byte) : SegmentSettled f s (serveArm st flight s).1 := by
  rcases serveArm_answers st flight s with ⟨_, -, h⟩ | ⟨⟨g, -, h⟩, -⟩
  · rw [h]; exact .refl f s
  · rw [h]; exact (armFlight_work g s).settled (.of_same (by rw [armFlight_flight_same]))

theorem serveGo_settled (st : Station) (flight : Byte) : SegmentSettled f s (serveGo st flight s).1 := by
  rcases serveGo_cases st flight s with ⟨_, -, h⟩ | ⟨g, -, h⟩ <;> rw [h]
  · exact .refl f s
  · exact (startHead_carried false).settled

theorem resumeFlight_settled (g : FlightId) : SegmentSettled f s (resumeFlight g s) := by
  unfold resumeFlight
  split
  · rename_i act active
    refine ((updFlight_work g _ s).trans (putFlightState_work g _ _)).settled
      (.of_some (pos := act.pos) (speed := 0) (stop := none) active ?_ le_rfl)
    rw [putFlightState_flight_same, State.updFlight_flight_same]
  all_goals exact (putFlightState_carried _).settled

theorem serveResume_settled (st : Station) (flight : Byte) : SegmentSettled f s (serveResume st flight s).1 := by
  refine Answers.settled (drivingEnabled_answers fun g _ _ => ?_)
  repeat' split
  · exact .refuse (by decide)
  · exact .refuse (by decide)
  · exact .accept (resumeFlight_settled g)

theorem serveCancel_settled (st : Station) (flight : Byte) : SegmentSettled f s (serveCancel st flight s).1 := by
  refine Answers.settled (driving_answers fun g _ => ?_)
  split
  · exact .accept (((updFlight_work g _ s).trans (putFlightState_work g _ _)).settled (.of_none (by simp)))
  · exact .refuse (by decide)

theorem servePark_settled (st : Station) (flight : Byte) : SegmentSettled f s (servePark st flight s).1 := by
  refine Answers.settled (driving_answers fun g _ => ?_)
  split
  · exact .accept ((parkFlight_work g s).settled (.of_none (by rw [parkFlight_flight_same])))
  · exact .refuse (by decide)

theorem serveResetFlight_settled (st : Station) (flight : Byte) : SegmentSettled f s (serveResetFlight st flight s).1 := by
  refine Answers.settled (driving_answers fun g _ => ?_)
  repeat' split
  · exact .refuse (by decide)
  · exact .refuse (by decide)
  · exact .refuse (by decide)
  · exact .accept ((resetTripped_work g s).settled (.of_none (by rw [resetTripped_flight_same])))

theorem serveStop_settled (st : Station) (flight : Byte) : SegmentSettled f s (serveStop st flight s).1 := by
  unfold serveStop
  repeat' split
  · exact (SegmentCarried.foldl _ _ (fun _ _ _ => tripFlight_carried _) s).settled
  · exact .refl f s
  · exact (tripFlight_carried _).settled

theorem serveAppend_settled (st : Station) (flight : Byte) (tag : Half) (presence : Byte) (t0 t1 t2 t3 vmax : Word)
    (aUp aDn dwell : Half) (start flags : Byte) :
    SegmentSettled f s (serveAppend st flight tag presence t0 t1 t2 t3 vmax aUp aDn dwell start flags s).1 := by
  unfold serveAppend
  split
  · exact .refl f s
  · refine Answers.settled (driving_answers fun g _ => ?_)
    repeat' split
    · exact .refuse (by decide)
    · exact .refuse (by decide)
    · exact .refuse (by decide)
    · exact .refuse (by decide)
    · exact .accept (updFlight_settled fun _ => rfl)

theorem serveFlush_settled (st : Station) (flight : Byte) : SegmentSettled f s (serveFlush st flight s).1 := by
  refine Answers.settled (driving_answers fun g _ => ?_)
  split
  · exact .refuse (by decide)
  · exact .accept (updFlight_settled fun _ => rfl)

theorem serveSetSlot_settled (slot input enabled : Byte) (tare high low slack : Half) :
    SegmentSettled f s (serveSetSlot slot input enabled tare high low slack s).1 := by
  unfold serveSetSlot
  repeat' split
  any_goals exact .refl f s
  refine SegmentCarried.settled ?_
  exact .of_tables rfl rfl

theorem serveReadLines_settled (st : Station) (filters : Option Half) : SegmentSettled f s (serveReadLines st filters s).1 := by
  unfold serveReadLines
  dsimp only
  refine SegmentSettled.carried ?_ (updPort_quiet st _ _).carried
  split
  · exact (writeFilters_carried _).settled
  · exact .refl f s

/-- Every request settles the segments of the flights. -/
theorem serveRequest_settled (i : Instr) (s : State) : SegmentSettled f s (serveRequest i s).1 := by
  cases i with
  | claim => exact serveClaim_settled _ _ _
  | release => exact serveRelease_settled _ _
  | bind => exact serveBind_settled _ _ _
  | unbind => exact serveUnbind_settled _ _
  | configureAxis => exact serveConfigureAxis_settled _ _ _ _ _ _ _ _ _
  | setFlightLimits => exact serveSetFlightLimits_settled _ _ _ _ _
  | arm => exact serveArm_settled _ _
  | go => exact serveGo_settled _ _
  | resume => exact serveResume_settled _ _
  | cancel => exact serveCancel_settled _ _
  | park => exact servePark_settled _ _
  | resetFlight => exact serveResetFlight_settled _ _
  | openCue | closeCue => exact Answers.settled (driving_answers fun g _ => .accept (updFlight_settled fun _ => rfl))
  | hold =>
    show SegmentSettled f s (serveHold _ _ s).1
    unfold serveHold
    split
    · exact .refl f s
    · exact (holdFlight_carried _).settled
  | holdAll => exact (SegmentCarried.foldl _ _ (fun _ _ _ => holdFlight_carried _) s).settled
  | stop => exact serveStop_settled _ _
  | append => exact serveAppend_settled _ _ _ _ _ _ _ _ _ _ _ _ _ _
  | flush => exact serveFlush_settled _ _
  | setLink st link source condition action target =>
    show SegmentSettled f s (serveSetLink link source condition action target s).1
    unfold serveSetLink
    split
    · exact ((setLink_quiet _ _ _).carried.trans (takeInAnyOrder_carried takeEffect_carried)).settled
    · exact .refl f s
  | clearLink st link =>
    show SegmentSettled f s (serveClearLink link s).1
    unfold serveClearLink
    split
    · exact .refl f s
    · exact (clearEntry_carried _).settled
  | setSlot => exact serveSetSlot_settled _ _ _ _ _ _ _
  | scan st mode =>
    show SegmentSettled f s (serveScan mode s).1
    unfold serveScan
    split
    · exact .refl f s
    · exact (startScan_quiet _ _).settled
  | inject st slot raw =>
    show SegmentSettled f s (serveInject slot raw s).1
    unfold serveInject
    repeat' split
    any_goals exact .refl f s
    exact (newResult_carried _ _ _).settled
  | status | readSlots => exact (updPort_quiet _ _ _).settled
  | readFlight st flight =>
    show SegmentSettled f s (serveReadFlight flight s).1
    unfold serveReadFlight
    split <;> exact .refl f s
  | readAxis st axis =>
    show SegmentSettled f s (serveReadAxis axis s).1
    unfold serveReadAxis
    split <;> exact .refl f s
  | readLines => exact serveReadLines_settled _ _
  | _ => exact .refl f s

end

/-! ### Ports -/

section
variable {f : FlightId} {s u : State} {st : Station}

theorem takeRequest_settled {kind : Byte} {serve : State → State × Answer} (h : Quiet s u)
    (served : SegmentSettled f u (serve u).1) : SegmentSettled f s (takeRequest st kind serve u) :=
  (served.behind_quiet h).carried (startReply_quiet _ _ _ _).carried

theorem takeFrame_settled (h : Quiet s u) (fr : Frame) : SegmentSettled f s (takeFrame st fr u) := by
  unfold takeFrame
  split
  · exact takeRequest_settled h (.refl f u)
  · exact takeRequest_settled h (.refl f u)
  · exact takeRequest_settled h (serveRequest_settled _ u)

theorem onRequest_settled {kind : Byte} {serve : State → State × Answer} {t : State}
    (served : ∀ u, SegmentSettled f u (serve u).1) (h : onRequest st kind serve s = .next t) : SegmentSettled f s t := by
  unfold onRequest at h
  cases h
  split
  · exact .refl f s
  · exact takeRequest_settled (markHeard_quiet st s) (served _)

theorem byteArrives_settled (b : Byte) (stopOk : Bool) : SegmentSettled f s (byteArrives st b stopOk s) := by
  have ported (x : Port → Port) : Quiet s (s.updPort st x) := updPort_quiet st x s
  unfold byteArrives receiveByte completeFrame placeFrame
  dsimp only
  repeat' split
  any_goals exact (ported _).settled
  · exact .refl f s
  · exact takeFrame_settled ((ported _).before rfl (markHeard_quiet _ _)) _
  · exact (((ported _).before rfl (markHeard_quiet _ _)).before rfl (updPort_quiet _ _ _)).settled

theorem replyEnds_settled : SegmentSettled f s (replyEnds st s) := by
  unfold replyEnds
  split
  · exact (updPort_quiet _ _ _).settled
  · exact takeFrame_settled (updPort_quiet _ _ _) _

end

/-! ### The axis bus and supervision -/

section
variable {s : State}

theorem tripFlight_segments (f : FlightId) (cause : TripCause) (s : State) : SegmentsStand s (tripFlight f cause s) :=
  (tripFlight_work f cause s).segments (by rw [tripFlight_flight_same]; exact (Flight.Carries.afterTrip _ _).keeps)

theorem faultAxis_segments (n : AxisId) (cause : FaultCause) (s : State) : SegmentsStand s (faultAxis n cause s) := by
  rcases faultAxis_cases n cause s with ⟨-, e⟩ | ⟨-, ⟨-, e⟩ | ⟨g, -, e⟩⟩ <;> rw [e]
  · exact .of_flights rfl
  · exact .of_flights rfl
  · exact (SegmentsStand.of_flights rfl).trans (tripFlight_segments _ _ _)

theorem countMiss_segments (n : AxisId) (kind : ExchangeKind) (s : State) : SegmentsStand s (countMiss n kind s) := by
  rcases countMiss_cases n kind s with ⟨-, e⟩ | ⟨-, e⟩ <;> rw [e]
  · exact (SegmentsStand.of_flights rfl).trans (faultAxis_segments _ _ _)
  · exact .of_flights rfl

theorem missExchange_segments (x : Exchange) (s : State) : SegmentsStand s (missExchange x s) := by
  unfold missExchange
  refine SegmentsStand.trans ?_ (.of_flights (passTurn_quiet _ _).flights)
  split
  · exact .of_flights rfl
  · exact countMiss_segments _ _ _

theorem writeEnds_segments (x : Exchange) (s : State) : SegmentsStand s (writeEnds x s) := by
  unfold writeEnds
  refine SegmentsStand.trans ?_ (.of_flights (passTurn_quiet _ _).flights)
  split <;> exact .of_flights rfl

theorem faultAtRead_segments (x : Turn) (cause : FaultCause) (s : State) : SegmentsStand s (faultAtRead x cause s) := by
  refine SegmentsStand.trans ?_ (faultAxis_segments _ _ _)
  rcases meetTrip_spec x cause s with e | e | ⟨f, other, -, -, -, e⟩ <;> rw [e]
  · exact .of_flights rfl
  · exact .of_flights rfl
  · exact (SegmentsStand.of_flights rfl).trans (tripFlight_segments _ _ _)

theorem confirmArming_segments (n : AxisId) (s : State) : SegmentsStand s (confirmArming n s) := by
  rcases confirmArming_cases n s with e | ⟨g, -, -, -, e⟩ <;> rw [e]
  · exact .of_flights rfl
  · exact ((updFlight_work g _ _).trans (putFlightState_work g _ _)).segments (.of_same (by simp))

theorem judge_segments {x : Turn} {verdict : Option FaultCause} {passed : State → State} (h : SegmentsStand s (passed s)) :
    SegmentsStand s (judge x verdict s passed) := by
  unfold judge
  split
  · exact faultAtRead_segments _ _ _
  · exact h

theorem supervise_segments (x : Turn) (pos : Int) (status : Byte) (s : State) :
    SegmentsStand s (supervise x pos status s) := by
  have same : SegmentsStand s s := .of_flights rfl
  unfold supervise
  dsimp only
  split
  case h_1 | h_2 => exact same
  case h_3 =>
    repeat' split
    · exact faultAtRead_segments _ _ _
    · exact faultAtRead_segments _ _ _
    · exact .of_flights rfl
    · exact same
  case h_4 =>
    repeat' split
    · exact faultAtRead_segments _ _ _
    · have released : SegmentsStand s (putAxis x.axis (fun a => { a with state := .following }) s) := .of_flights rfl
      exact released.trans (judge_segments (confirmArming_segments _ _))
    · exact judge_segments same
  case h_5 =>
    repeat' split
    · exact faultAtRead_segments _ _ _
    · exact judge_segments same
    · exact faultAtRead_segments _ _ _

theorem readArrives_segments (x : Exchange) (position : Word) (status check : Byte) (s : State) :
    SegmentsStand s (readArrives x position status check s) := by
  unfold readArrives
  split
  · refine SegmentsStand.trans ?_ (.of_flights (passTurn_quiet _ _).flights)
    split
    · exact .of_flights rfl
    · exact (SegmentsStand.of_flights rfl).trans (supervise_segments _ _ _ _)
  · exact missExchange_segments _ _

end

/-! ### The step expiry -/

section
variable {f g : FlightId} {s : State}

theorem endDwell_settled (g : FlightId) (s : State) : SegmentSettled f s (endDwell g s) := by
  have counted : SegmentSettled f s (s.updFlight g fun r => { r with dwell := none }) := updFlight_settled fun _ => rfl
  exact counted.carried followDecision_carried

/-- Behind an advance to any path state that has not gone back, the flight's segment is the one before. -/
theorem advance_segments {act : Active} {pos speed : Nat} {stop : Option Nat} (active : (s.flight g).active = some act)
    (on : act.pos ≤ pos) : SegmentsStand s (advance g { act with pos := pos, speed := speed, aStop := stop } s) :=
  (advance_work g _ s).segments (.of_some active (by rw [advance_flight_same]) on)

theorem completeMoving_settled (act : Active) : SegmentSettled f s (completeMoving g act s) := by
  by_cases dwell : act.seg.dwell = 0
  · rw [completeMoving_follow dwell]
    refine SegmentSettled.carried ?_ followDecision_carried
    exact (closeSegment_work g act s).settled (.of_none (by rw [closeSegment_flight_same]; rfl))
  · exact (completeMoving_work g act s).settled (.of_none (by rw [completeMoving_dwell dwell]; rfl))

theorem movingStep_settled {act : Active} (active : (s.flight g).active = some act) :
    SegmentSettled f s (movingStep g act s) := by
  have advanced := advance_segments (pos := act.pos + movingSpeed act (act.pathLen - act.pos))
    (speed := movingSpeed act (act.pathLen - act.pos)) (stop := act.aStop) active (Nat.le_add_right _ _)
  unfold movingStep
  dsimp only
  repeat' split
  · exact completeMoving_settled act
  · exact (completeMoving_settled _).behind (advanced f)
  · exact advanced.settled

theorem completeStopping_segments (act : Active) (s : State) : SegmentsStand s (completeStopping g act s) :=
  (completeStopping_work g act s).segments (.of_none (by rw [completeStopping_flight_same]; rfl))

theorem stoppingStep_segments {act : Active} (active : (s.flight g).active = some act) :
    SegmentsStand s (stoppingStep g act s) := by
  have advanced (stop : Option Nat) := advance_segments (pos := act.pos + stoppingSpeed act)
    (speed := stoppingSpeed act) (stop := stop) active (Nat.le_add_right _ _)
  unfold stoppingStep
  dsimp only
  repeat' split
  · exact (advanced act.aStop).trans (completeStopping_segments _ _)
  · refine (advanced none).trans ((putFlightState_work g .held _).segments (.of_same ?_))
    rw [putFlightState_flight_same]
  · exact advanced act.aStop

theorem armingStep_segments (g : FlightId) (k : Nat) (s : State) : SegmentsStand s (armingStep g k s) := by
  have counted : SegmentsStand s (s.updFlight g fun r => { r with armTimer := some (k - 1) }) :=
    (updFlight_work g _ s).segments (.of_same (by rw [State.updFlight_flight_same]))
  unfold armingStep
  dsimp only
  repeat' split
  · exact counted.trans (tripFlight_segments _ _ _)
  · exact counted
  · exact counted

theorem pathStep_settled (g : FlightId) (s : State) : SegmentSettled f s (pathStep g s) := by
  unfold pathStep
  split
  case h_1 => split; exacts [movingStep_settled ‹_›, .refl f s]
  case h_2 => split; exacts [(stoppingStep_segments ‹_›).settled, .refl f s]
  case h_3 =>
    unfold dwellStep
    repeat' split
    · exact endDwell_settled g s
    · exact updFlight_settled fun _ => rfl
    · exact .refl f s
  case h_4 => split; exacts [(armingStep_segments _ _ _).settled, .refl f s]
  all_goals exact .refl f s

theorem flightExpiry_settled (late : Station → Bool) (f : FlightId) (s : State) :
    SegmentSettled f s (flightExpiry late f s) := by
  rcases flightExpiry_cases late f s with ⟨-, e⟩ | ⟨-, k, e | e⟩ <;> rw [e]
  · exact pathStep_settled f s
  · exact ((pathStep_settled f _).behind_quiet (freeIndex_quiet k s)).carried (restrainFlight_carried _)
  · refine ((pathStep_settled f _).behind ?_).behind_quiet (freeIndex_quiet k s)
    rw [restrainFlight_flight_same]
    exact (Flight.Carries.afterRestraint _ _).keeps

/-- The other flights' work at an expiry leaves what the flight's own has made of its segment. -/
theorem stepAll_settled (rig : RigSound s) (f : FlightId) : SegmentSettled f s (stepAll s) := by
  obtain ⟨u, before, behind⟩ := stepAll_flight rig f
  refine ((flightExpiry_settled _ f u).behind (.of_same ?_)).carried behind.carried
  rw [before.flight]

theorem restrainClaimed_carried (st : Station) (cause : HoldCause) : SegmentCarried f s (restrainClaimed st cause s) :=
  .foldl _ _ (fun t _ _ => by split; exacts [restrainFlight_carried _, .refl f t]) s

end

/-! ### Every command -/

section
variable {f : FlightId} {s t : State}

theorem assertReset_segments (s : State) : SegmentsStand s (assertReset s) := fun f =>
  .of_none (by rw [assertReset_flight]; rfl)

theorem releaseReset_carried : SegmentCarried f s (releaseReset s) := by
  unfold releaseReset
  dsimp only
  refine .trans ?_ (takeInAnyOrder_carried settleLine_carried)
  exact .of_tables rfl rfl

theorem exec_settled {i : Instr} (rig : RigSound s) (h : exec i s = .next t) : SegmentSettled f s t := by
  have same : SegmentSettled f s s := .refl f s
  cases e : encodeRequest i with
  | some frame =>
    obtain ⟨st, kind, body⟩ := frame
    rw [exec_request s e] at h
    exact onRequest_settled (serveRequest_settled i) h
  | none =>
    cases i <;> first | (cases e; done) | skip
    case readLines st filters => cases filters <;> cases e
    case resetnAssert => cases h; exact (assertReset_segments s).settled
    case resetEnd => cases h; split; exacts [releaseReset_carried.settled, same]
    case unknownKind st kind =>
      change execUnknownKind st kind s = _ at h
      unfold execUnknownKind at h
      split at h
      · cases h; exact same
      · exact onRequest_settled (fun u => .refl f u) h
    case byteReceived => cases h; split; exacts [same, byteArrives_settled _ _]
    case gap => cases h; split; exacts [same, (updPort_quiet _ _ _).settled]
    case replySent => cases h; split; exacts [same, replyEnds_settled]
    case stepExpiry => cases h; split; exacts [stepAll_settled rig f, same]
    case dwellExpiry g =>
      cases h
      repeat' split
      · exact endDwell_settled g s
      all_goals exact same
    case brakeTimeout g =>
      cases h
      repeat' split
      · exact (tripFlight_segments _ _ _).settled
      all_goals exact same
    case silence st =>
      cases h
      split
      · exact ((countSilence_quiet _ _).carried.trans (restrainClaimed_carried _ _)).settled
      · exact same
    case sndrPhaseExpiry => exact (execSndrPhaseExpiry_quiet h).settled
    case exchangeStart =>
      cases h
      repeat' split
      all_goals
        refine SegmentCarried.settled ?_
        exact .of_tables rfl rfl
    case heldLine =>
      cases h
      repeat' split
      · exact same
      · exact ((countMiss_segments _ _ _).trans (.of_flights (passTurn_quiet _ _).flights)).settled
      · exact same
    case writeComplete =>
      cases h
      repeat' split
      · exact (writeEnds_segments _ _).settled
      all_goals exact same
    case readComplete =>
      cases h
      repeat' split
      · exact (readArrives_segments _ _ _ _ _).settled
      all_goals exact same
    case answerHoldTimeout =>
      cases h
      repeat' split
      · exact (missExchange_segments _ _).settled
      all_goals exact same
    case missedExchange =>
      cases h
      repeat' split
      · exact same
      · exact (missExchange_segments _ _).settled
      · exact same
    case rawLevelChange => cases h; exact (rawChange_carried _ _).settled
    case filterAccept =>
      cases h
      repeat' split
      · exact (acceptChange_carried _ _).settled
      all_goals exact same
    case lineSettle => cases h; split; exacts [(settleLine_carried _ _).settled, same]
    case conversionComplete =>
      cases h
      repeat' split
      · exact same
      · exact ((newResult_carried _ _ _).trans (nextConversion_quiet _ _).carried).settled
      all_goals exact same

theorem step_settled (rig : RigSound s) (h : step s = .next t) : SegmentSettled f s t := by
  unfold step at h
  split at h
  · cases h; exact .refl f s
  · rename_i rest _
    exact (exec_settled (rig.of_pending rest) h).behind (.of_same rfl)

/-- Settles O14: up to a start a command only advances the segment or rewrites what a start reads, and behind the start it only
holds the new one. -/
theorem segmentStandsOrIsNew : Obligations.SegmentStandsOrIsNew := by
  intro s t f a b rig h before behind
  obtain ⟨u, keeps, carried⟩ := step_settled (f := f) rig h
  rcases carried.active b behind with ⟨c, stop, active, rfl⟩ | ⟨seg, byCue, stop, rfl⟩
  · obtain ⟨a', pos, speed, _, active', rfl, on⟩ := keeps c active
    obtain rfl : a' = a := Option.some.inj (active'.symm.trans before)
    exact .inl ⟨rfl, on⟩
  · exact .inr rfl

end

end Sys2Proof.Machine
end

section
namespace Sys2Proof.Machine

/-! ## The arithmetic of the path (03, R46 to R58) -/

/-! ### The braking distance (03, R52) -/

section
variable {a b x y : Nat}

theorem brakingDistance_short (h : x < a) : brakingDistance a x = 0 := by
  simp [brakingDistance, Nat.div_eq_of_lt h]

/-- The closed form without its division: the half of it is exact, and the difference loses nothing. -/
theorem two_mul_brakingDistance (a x : Nat) :
    2 * brakingDistance a x + a * (x / a) * (x / a + 1) = 2 * (x / a * x) := by
  have fits : a * (x / a) * (x / a + 1) ≤ 2 * (x / a * x) := by
    have steps : a * (x / a) ≤ x := Nat.mul_div_le x a
    rcases Nat.eq_zero_or_pos (x / a) with zero | pos
    · simp [zero]
    · have one : a ≤ x := (Nat.le_mul_of_pos_right a pos).trans steps
      calc a * (x / a) * (x / a + 1) = x / a * (a * (x / a) + a) := by ring
        _ ≤ x / a * (x + x) := Nat.mul_le_mul_left _ (Nat.add_le_add steps one)
        _ = 2 * (x / a * x) := by ring
  have half : 2 ∣ a * (x / a) * (x / a + 1) := by
    rw [Nat.mul_assoc]
    exact (Nat.even_mul_succ_self _).two_dvd.mul_left a
  unfold brakingDistance
  omega

/-- D(x) = (x − a) + D(x − a): one step's travel, and the braking distance from the speed behind it (03, R52). -/
theorem brakingDistance_step (pos : 1 ≤ a) (h : a ≤ x) : brakingDistance a x = (x - a) + brakingDistance a (x - a) := by
  obtain ⟨y, rfl⟩ := Nat.exists_eq_add_of_le h
  have now := two_mul_brakingDistance a (a + y)
  have next := two_mul_brakingDistance a y
  rw [Nat.add_div_left y pos] at now
  rw [Nat.add_sub_cancel_left]
  refine Nat.eq_of_mul_eq_mul_left (Nat.zero_lt_two) ?_
  linarith

theorem brakingDistance_slow (pos : 1 ≤ a) (h : x ≤ a) : brakingDistance a x = 0 := by
  rcases h.lt_or_eq with short | rfl
  · exact brakingDistance_short short
  · rw [brakingDistance_step pos le_rfl, Nat.sub_self, brakingDistance_short pos]

/-- A braking flight's travel, step after step (03, R52). -/
theorem brakingDistance_sum (pos : 1 ≤ a) (x : Nat) :
    brakingDistance a x = ((List.range (x / a)).map fun j => x - (j + 1) * a).sum := by
  generalize steps : x / a = q
  induction q generalizing x with
  | zero => simp [brakingDistance, steps]
  | succ q ih =>
    have more : a ≤ x := (Nat.div_pos_iff.mp (by omega)).2
    obtain ⟨y, rfl⟩ := Nat.exists_eq_add_of_le more
    rw [Nat.add_div_left y pos, Nat.succ_inj] at steps
    rw [brakingDistance_step pos more, Nat.add_sub_cancel_left, ih y steps, List.range_succ_eq_map, List.map_cons, List.sum_cons,
      List.map_map]
    congr 2
    · simp
    · refine List.map_congr_left fun j _ => ?_
      simp only [Function.comp_apply, Nat.succ_eq_add_one, Nat.add_one_mul (j + 1)]
      omega

/-- Braking from a higher speed takes no shorter way. -/
theorem brakingDistance_mono (pos : 1 ≤ a) (h : x ≤ y) : brakingDistance a x ≤ brakingDistance a y := by
  induction x using Nat.strong_induction_on generalizing y with
  | h x ih =>
    rcases Nat.lt_or_ge x a with short | long
    · rw [brakingDistance_short short]; exact Nat.zero_le _
    · rw [brakingDistance_step pos long, brakingDistance_step pos (long.trans h)]
      have rest := ih (x - a) (by omega) (y := y - a) (by omega)
      omega

/-- A harder deceleration takes no longer way. -/
theorem brakingDistance_anti (pos : 1 ≤ a) (h : a ≤ b) (x : Nat) : brakingDistance b x ≤ brakingDistance a x := by
  induction x using Nat.strong_induction_on with
  | h x ih =>
    rcases Nat.lt_or_ge x b with short | long
    · rw [brakingDistance_short short]; exact Nat.zero_le _
    · have rest := ih (x - b) (by omega)
      have slower := brakingDistance_mono pos (show x - b ≤ x - a by omega)
      rw [brakingDistance_step (pos.trans h) long, brakingDistance_step pos (h.trans long)]
      omega

end

/-- Settles O37. -/
theorem brakingDistanceSums : Obligations.BrakingDistanceSums := by
  intro a x pos
  refine ⟨rfl, brakingDistance_sum pos x, brakingDistance_short pos, brakingDistance_slow pos, brakingDistance_step pos,
    fun h => ?_, by decide, by decide, by decide, by decide⟩
  calc x / a * x ≤ 192000 * 192000 := Nat.mul_le_mul ((Nat.div_le_self x a).trans h) h
    _ < 2 ^ 36 := by norm_num

/-! ### The choice of a speed (03, R54, R55) -/

/-- A candidate speed fits a remaining path under the deceleration a (03, R54). -/
def SpeedFits (a remaining x : Nat) : Prop := x + brakingDistance a x ≤ remaining

theorem qualifies_iff (a remaining x : Nat) : qualifies a remaining x = true ↔ SpeedFits a remaining x := by
  simp [qualifies, SpeedFits]

theorem speedFits_slow {a remaining x : Nat} (pos : 1 ≤ a) (slow : x ≤ a) (left : x ≤ remaining) : SpeedFits a remaining x := by
  rw [SpeedFits, brakingDistance_slow pos slow]; exact left

/-- The candidates of a speed: up, same and down (03, R54). -/
def Active.Candidate (act : Active) (x : Nat) : Prop :=
  x = min (act.speed + act.aUpEff) act.vEff ∨ x = act.speed ∨ x = act.speed - act.aDnEff

/-- What chooses a speed v: the first candidate that fits, unless it is 0 and so the creep speed (03, R54, R55). -/
def Active.Chooses (act : Active) (remaining v : Nat) : Prop :=
  let up := min (act.speed + act.aUpEff) act.vEff
  let down := act.speed - act.aDnEff
  let fits := SpeedFits act.aDnEff remaining
  (v = up ∧ 1 ≤ v ∧ fits up) ∨ (v = act.speed ∧ 1 ≤ v ∧ ¬fits up ∧ fits act.speed) ∨
    (v = down ∧ 1 ≤ v ∧ ¬fits up ∧ ¬fits act.speed ∧ fits down) ∨
    (v = min remaining act.aDnEff ∧ ¬fits up ∧ ∀ x, act.Candidate x → fits x → x = 0)

/-- The limits and the speed of a segment that a MOVING flight has. -/
structure Active.Driven (act : Active) : Prop where
  accel : 1 ≤ act.aUpEff
  decel : 1 ≤ act.aDnEff
  limit : 1 ≤ act.vEff
  speed : act.speed ≤ act.vEff

section
variable {act : Active} {remaining : Nat}

theorem Active.Driven.le_up (h : act.Driven) : act.speed ≤ min (act.speed + act.aUpEff) act.vEff :=
  Nat.le_min.mpr ⟨Nat.le_add_right _ _, h.speed⟩

theorem Active.Driven.one_le_up (h : act.Driven) : 1 ≤ min (act.speed + act.aUpEff) act.vEff :=
  Nat.le_min.mpr ⟨Nat.le_add_left_of_le h.accel, h.limit⟩

/-- The first candidate of up, same and down that fits, or 0 where none does. -/
theorem chosenCandidate_cases (act : Active) (remaining : Nat) :
    let up := min (act.speed + act.aUpEff) act.vEff
    let down := act.speed - act.aDnEff
    let fits := SpeedFits act.aDnEff remaining
    let c := chosenCandidate act remaining
    c = up ∧ fits up ∨ c = act.speed ∧ ¬fits up ∧ fits act.speed ∨ c = down ∧ ¬fits up ∧ ¬fits act.speed ∧ fits down ∨
      c = 0 ∧ ¬fits up ∧ ¬fits act.speed ∧ ¬fits down := by
  simp only [← qualifies_iff]
  unfold chosenCandidate
  dsimp only
  split
  · exact .inl ⟨rfl, ‹_›⟩
  split
  · exact .inr (.inl ⟨rfl, ‹_›, ‹_›⟩)
  split
  · exact .inr (.inr (.inl ⟨rfl, ‹_›, ‹_›, ‹_›⟩))
  · exact .inr (.inr (.inr ⟨rfl, ‹_›, ‹_›, ‹_›⟩))

/-- Where the chosen candidate is 0, up does not fit and no other candidate fits but 0: up itself is never 0. -/
theorem chosenCandidate_zero (h : act.Driven) (stands : chosenCandidate act remaining = 0) :
    ¬SpeedFits act.aDnEff remaining (min (act.speed + act.aUpEff) act.vEff) ∧
      ∀ x, act.Candidate x → SpeedFits act.aDnEff remaining x → x = 0 := by
  have up := h.one_le_up
  have chosen := chosenCandidate_cases act remaining
  dsimp only at chosen
  rw [stands] at chosen
  rcases chosen with ⟨zero, -⟩ | ⟨zero, noUp, -⟩ | ⟨zero, noUp, noSame, -⟩ | ⟨-, noUp, noSame, noDown⟩
  · omega
  all_goals refine ⟨noUp, ?_⟩; rintro x (rfl | rfl | rfl) fits
  · exact absurd fits noUp
  · exact zero.symm
  · omega
  · exact absurd fits noUp
  · exact absurd fits noSame
  · exact zero.symm
  · exact absurd fits noUp
  · exact absurd fits noSame
  · exact absurd fits noDown

theorem movingSpeed_chooses (h : act.Driven) : act.Chooses remaining (movingSpeed act remaining) := by
  unfold movingSpeed
  split
  · rename_i stands
    exact .inr (.inr (.inr ⟨rfl, chosenCandidate_zero h stands⟩))
  · rename_i moves
    have one : 1 ≤ chosenCandidate act remaining := Nat.one_le_iff_ne_zero.mpr moves
    rcases chosenCandidate_cases act remaining with ⟨c, fits⟩ | ⟨c, fits⟩ | ⟨c, fits⟩ | ⟨c, -⟩
    · exact .inl ⟨c, one, fits⟩
    · exact .inr (.inl ⟨c, one, fits⟩)
    · exact .inr (.inr (.inl ⟨c, one, fits⟩))
    · exact absurd c moves

/-- A speed that is chosen is within v_eff and leaves room to brake: where the creep speed is above v_eff, up is slow enough to
fit. -/
theorem Active.Chooses.sound {v : Nat} (chosen : act.Chooses remaining v) (h : act.Driven) (left : 1 ≤ remaining) :
    1 ≤ v ∧ v ≤ act.vEff ∧ SpeedFits act.aDnEff remaining v := by
  have decel := h.decel
  have speed := h.speed
  have upLimit := Nat.min_le_right (act.speed + act.aUpEff) act.vEff
  rcases chosen with ⟨rfl, one, fits⟩ | ⟨rfl, one, -, fits⟩ | ⟨rfl, one, -, -, fits⟩ | ⟨rfl, noUp, -⟩
  · exact ⟨one, upLimit, fits⟩
  · exact ⟨one, h.speed, fits⟩
  · exact ⟨one, by omega, fits⟩
  · refine ⟨by omega, ?_, speedFits_slow h.decel (Nat.min_le_right _ _) (Nat.min_le_left _ _)⟩
    by_contra fast
    exact noUp (speedFits_slow h.decel (by omega) (by omega))

/-- No candidate that fits is above the speed that is chosen. -/
theorem Active.Chooses.largest {v : Nat} (chosen : act.Chooses remaining v) (h : act.Driven) {x : Nat}
    (candidate : act.Candidate x) (fits : SpeedFits act.aDnEff remaining x) : x ≤ v := by
  have up := h.le_up
  rcases chosen with ⟨rfl, -, -⟩ | ⟨rfl, -, noUp, -⟩ | ⟨rfl, -, noUp, noSame, -⟩ | ⟨-, -, still⟩
  · rcases candidate with rfl | rfl | rfl
    · exact le_rfl
    · exact up
    · omega
  · rcases candidate with rfl | rfl | rfl
    · exact absurd fits noUp
    · exact le_rfl
    · exact Nat.sub_le _ _
  · rcases candidate with rfl | rfl | rfl
    · exact absurd fits noUp
    · exact absurd fits noSame
    · exact le_rfl
  · rw [still x candidate fits]; exact Nat.zero_le _

theorem Active.Driven.advanced (h : act.Driven) {v : Nat} (within : v ≤ act.vEff) : (act.advanced v).Driven :=
  ⟨h.accel, h.decel, h.limit, within⟩

/-- The words of 03, R54 and R55 for the speed of one MOVING advance with path remaining. -/
def Active.SpeedChosen (act : Active) (remaining v : Nat) : Prop :=
  let up := min (act.speed + act.aUpEff) act.vEff
  let down := act.speed - act.aDnEff
  let fits (x : Nat) : Prop := x + brakingDistance act.aDnEff x ≤ remaining
  act.speed ≤ up ∧ down ≤ act.speed ∧ fits 0 ∧
  (∀ x, x = up ∨ x = act.speed ∨ x = down → fits x → x ≤ v) ∧
  ((v = up ∧ 1 ≤ v ∧ fits up) ∨ (v = act.speed ∧ 1 ≤ v ∧ ¬fits up ∧ fits act.speed) ∨
    (v = down ∧ 1 ≤ v ∧ ¬fits up ∧ ¬fits act.speed ∧ fits down) ∨
    (v = min remaining act.aDnEff ∧ brakingDistance act.aDnEff v = 0 ∧
      ∀ x, x = up ∨ x = act.speed ∨ x = down → fits x → x = 0)) ∧
  1 ≤ v ∧ v ≤ act.vEff ∧ v ≤ remaining ∧ brakingDistance act.aDnEff v ≤ remaining - v

theorem movingSpeed_chosen (h : act.Driven) (left : 1 ≤ remaining) : act.SpeedChosen remaining (movingSpeed act remaining) := by
  have chosen := movingSpeed_chooses (remaining := remaining) h
  obtain ⟨one, limit, fits⟩ := chosen.sound h left
  refine ⟨h.le_up, Nat.sub_le _ _, speedFits_slow h.decel (Nat.zero_le _) (Nat.zero_le _), fun x => chosen.largest h, ?_, one,
    limit, Nat.le_of_add_right_le fits, Nat.le_sub_of_add_le' fits⟩
  refine chosen.imp_right (.imp_right (.imp_right fun ⟨creep, _, still⟩ => ⟨creep, ?_, still⟩))
  exact brakingDistance_slow h.decel (creep ▸ Nat.min_le_right _ _)

end

/-- Settles O38: the speed is chosen by the same rule at this expiry and, with path left, at the next. -/
theorem speedChoice : Obligations.SpeedChoice := by
  intro act remaining accel decel limit speed left chosen v
  have driven : act.Driven := ⟨accel, decel, limit, speed⟩
  have now := movingSpeed_chosen driven left
  have ⟨_, _, _, _, _, _, within, _⟩ := now
  refine ⟨now, ?_⟩
  rcases Nat.eq_zero_or_pos (remaining - v) with ended | more
  · exact .inl ended
  · exact .inr (movingSpeed_chosen (driven.advanced within) more)

end Sys2Proof.Machine
end

section
namespace Sys2Proof.Machine

/-! ### What a start fixes (03, R46 to R50) -/

/-- The displacement that a record asks of the member in slot i (03, R46). -/
def Segment.displacement (seg : Segment) (i : Nat) (a : Axis) : Int :=
  match seg.target i with
  | some x => x - a.setPoint
  | none => 0

theorem displacements_getElem? (seg : Segment) (members : List Axis) (i : Nat) :
    (displacements seg (members.map (·.setPoint)))[i]? = members[i]?.map (seg.displacement i) := by
  simp only [displacements, List.getElem?_map, List.getElem?_zipIdx, Option.map_map, Nat.zero_add]
  cases members[i]? <;> rfl

/-- The largest of a list and a value: it bounds them and is one of them. -/
theorem foldl_max_spec (l : List Nat) (m : Nat) :
    (m ≤ l.foldl max m ∧ ∀ x ∈ l, x ≤ l.foldl max m) ∧ (l.foldl max m = m ∨ l.foldl max m ∈ l) := by
  induction l generalizing m with
  | nil => simp
  | cons y l ih =>
    obtain ⟨⟨first, rest⟩, attained⟩ := ih (max m y)
    simp only [List.foldl_cons]
    generalize l.foldl max (max m y) = z at first rest attained
    refine ⟨⟨by omega, fun x hx => ?_⟩, ?_⟩
    · rcases List.mem_cons.mp hx with rfl | hx
      · omega
      · exact rest x hx
    · rcases attained with rfl | mem
      · rcases Nat.le_total m y with le | le
        · exact .inr (by simp [le])
        · exact .inl (by simp [le])
      · exact .inr (List.mem_cons_of_mem _ mem)

/-- L is sixteen times the largest displacement (03, R46). -/
theorem pathLength_spec (ds : List Int) :
    (∀ d ∈ ds, 16 * d.natAbs ≤ pathLength ds) ∧ (pathLength ds = 0 ∨ ∃ d ∈ ds, 16 * d.natAbs = pathLength ds) := by
  obtain ⟨⟨-, bound⟩, attained⟩ := foldl_max_spec (ds.map Int.natAbs) 0
  refine ⟨fun d hd => Nat.mul_le_mul_left _ (bound _ (List.mem_map_of_mem hd)), ?_⟩
  rcases attained with zero | mem
  · exact .inl (by rw [pathLength, zero])
  · obtain ⟨d, hd, e⟩ := List.mem_map.mp mem
    exact .inr ⟨d, hd, by rw [pathLength, e]⟩

/-- An effective limit is the smallest of what was asked for and the allowances of the members that move (03, R47 to R49). -/
theorem clampBy_spec (len : Nat) (limits : List (Nat × Int)) (asked : Nat) :
    clampBy len limits asked ≤ asked ∧
      (∀ lim d, (lim, d) ∈ limits → d ≠ 0 → clampBy len limits asked ≤ allowance lim len d) ∧
      (clampBy len limits asked = asked ∨ ∃ lim d, (lim, d) ∈ limits ∧ d ≠ 0 ∧ clampBy len limits asked = allowance lim len d) := by
  induction limits generalizing asked with
  | nil => simp [clampBy]
  | cons p limits ih =>
    obtain ⟨lim, d⟩ := p
    have taken : clampBy len ((lim, d) :: limits) asked =
        clampBy len limits (if d = 0 then asked else min asked (allowance lim len d)) := rfl
    rw [taken]
    by_cases still : d = 0
    · rw [if_pos still]
      obtain ⟨most, bound, attained⟩ := ih asked
      refine ⟨most, fun lim' d' mem moves => ?_, attained.imp_right ?_⟩
      · rcases List.mem_cons.mp mem with e | mem
        · cases e; exact absurd still moves
        · exact bound lim' d' mem moves
      · rintro ⟨lim', d', mem, found⟩
        exact ⟨lim', d', List.mem_cons_of_mem _ mem, found⟩
    · rw [if_neg still]
      obtain ⟨most, bound, attained⟩ := ih (min asked (allowance lim len d))
      refine ⟨most.trans (Nat.min_le_left _ _), fun lim' d' mem moves => ?_, ?_⟩
      · rcases List.mem_cons.mp mem with e | mem
        · cases e; exact most.trans (Nat.min_le_right _ _)
        · exact bound lim' d' mem moves
      · rcases attained with own | ⟨lim', d', mem, found⟩
        · rcases Nat.le_total asked (allowance lim len d) with le | le
          · exact .inl (own.trans (Nat.min_eq_left le))
          · exact .inr ⟨lim, d, List.mem_cons_self, still, own.trans (Nat.min_eq_right le)⟩
        · exact .inr ⟨lim', d', List.mem_cons_of_mem _ mem, found⟩

/-- One effective limit of a start over the path length `len` (03, R47 to R50). -/
structure EffectiveLimit (members : List Axis) (seg : Segment) (len : Nat) (limit : AxisParams → Nat) (asked value : Nat) :
    Prop where
  positive : 1 ≤ value
  most : value ≤ asked
  standing : len = 0 → value = asked
  safe : ∀ i a p, members[i]? = some a → a.params = some p → value * (16 * (seg.displacement i a).natAbs) ≤ limit p * len
  bound : ∀ i a p, members[i]? = some a → a.params = some p → seg.displacement i a ≠ 0 →
    value ≤ limit p * len / (16 * (seg.displacement i a).natAbs)
  attained : value = asked ∨ ∃ i a p, members[i]? = some a ∧ a.params = some p ∧ seg.displacement i a ≠ 0 ∧
    value = limit p * len / (16 * (seg.displacement i a).natAbs)

section
variable {members : List Axis} {seg : Segment}

/-- The displacements of the members, slot 0 first. -/
def Segment.moves (seg : Segment) (members : List Axis) : List Int := displacements seg (members.map (·.setPoint))

theorem mem_moves {d : Int} : d ∈ seg.moves members ↔ ∃ i a, members[i]? = some a ∧ seg.displacement i a = d := by
  simp only [Segment.moves, List.mem_iff_getElem?, displacements_getElem?, Option.map_eq_some_iff]

/-- What the limits pair with the displacements. -/
theorem mem_zip_moves {read : Axis → Nat} {lim : Nat} {d : Int} :
    (lim, d) ∈ (members.map read).zip (seg.moves members) ↔
      ∃ i a, members[i]? = some a ∧ read a = lim ∧ seg.displacement i a = d := by
  simp only [Segment.moves, List.mem_iff_getElem?, List.getElem?_zip_eq_some, displacements_getElem?, List.getElem?_map,
    Option.map_eq_some_iff]
  constructor
  · rintro ⟨i, ⟨a, ha, rfl⟩, b, hb, rfl⟩
    obtain rfl : a = b := Option.some.inj (ha.symm.trans hb)
    exact ⟨i, a, ha, rfl, rfl⟩
  · rintro ⟨i, a, ha, rfl, rfl⟩
    exact ⟨i, ⟨a, ha, rfl⟩, a, ha, rfl⟩

theorem pathLength_moves {i : Nat} {a : Axis} (member : members[i]? = some a) :
    16 * (seg.displacement i a).natAbs ≤ pathLength (seg.moves members) :=
  (pathLength_spec _).1 _ (mem_moves.mpr ⟨i, a, member, rfl⟩)

/-- The least of what was asked for and the allowances of the members that move is an effective limit; an allowance is at least
the member's own limit, since no member moves further than L. -/
theorem clampBy_effective {limit : AxisParams → Nat} {read : Axis → Nat} {asked : Nat} (one : 1 ≤ asked)
    (reads : ∀ a p, a.params = some p → read a = limit p)
    (params : ∀ a ∈ members, ∃ p, a.params = some p ∧ 1 ≤ limit p) :
    EffectiveLimit members seg (pathLength (seg.moves members)) limit asked
      (clampBy (pathLength (seg.moves members)) ((members.map read).zip (seg.moves members)) asked) := by
  obtain ⟨most, least, attained⟩ :=
    clampBy_spec (pathLength (seg.moves members)) ((members.map read).zip (seg.moves members)) asked
  generalize clampBy _ _ asked = value at most least attained
  have bound (i a p) (member : members[i]? = some a) (hp : a.params = some p) (moves : seg.displacement i a ≠ 0) :
      value ≤ limit p * pathLength (seg.moves members) / (16 * (seg.displacement i a).natAbs) :=
    least _ _ (mem_zip_moves.mpr ⟨i, a, member, reads a p hp, rfl⟩) moves
  have reached : value = asked ∨ ∃ i a p, members[i]? = some a ∧ a.params = some p ∧ seg.displacement i a ≠ 0 ∧
      value = limit p * pathLength (seg.moves members) / (16 * (seg.displacement i a).natAbs) := by
    refine attained.imp_right ?_
    rintro ⟨lim, d, mem, moves, e⟩
    obtain ⟨i, a, member, rfl, rfl⟩ := mem_zip_moves.mp mem
    obtain ⟨p, hp, -⟩ := params a (List.mem_of_getElem? member)
    exact ⟨i, a, p, member, hp, moves, by rw [← reads a p hp]; exact e⟩
  refine ⟨?_, most, fun still => reached.resolve_right ?_, fun i a p member hp => ?_, bound, reached⟩
  · rcases reached with rfl | ⟨i, a, p, member, hp, moves, rfl⟩
    · exact one
    · obtain ⟨q, hq, own⟩ := params a (List.mem_of_getElem? member)
      obtain rfl : q = p := Option.some.inj (hq.symm.trans hp)
      have within : 16 * (seg.displacement i a).natAbs ≤ pathLength (seg.moves members) := pathLength_moves member
      exact Nat.div_pos (within.trans (Nat.le_mul_of_pos_left _ own)) (by omega)
  · rintro ⟨i, a, p, member, -, moves, -⟩
    have within : 16 * (seg.displacement i a).natAbs ≤ pathLength (seg.moves members) := pathLength_moves member
    omega
  · by_cases moves : seg.displacement i a = 0
    · simp [moves]
    · exact (Nat.mul_le_mul_right _ (bound i a p member hp moves)).trans (Nat.div_mul_le_self _ _)

/-- The four effective limits of a start (03, R47 to R49). -/
theorem activeOf_limits {decel : Nat} (params : ∀ a ∈ members, ∃ p, a.params = some p ∧ p.InRange) (range : seg.InRange)
    (one : 1 ≤ decel) (byCue : Bool) :
    let act := activeOf members decel seg byCue
    EffectiveLimit members seg act.pathLen (·.vmax) seg.vmax act.vEff ∧
      EffectiveLimit members seg act.pathLen (·.amax) seg.aUp act.aUpEff ∧
      EffectiveLimit members seg act.pathLen (·.amax) seg.aDn act.aDnEff ∧
      EffectiveLimit members seg act.pathLen (·.amax) decel act.aHoldEff := by
  obtain ⟨speed, -, up, -, down, -⟩ := range
  have vmax (a : Axis) (p : AxisParams) (h : a.params = some p) : a.vmax = p.vmax := by simp [Axis.vmax, h]
  have amax (a : Axis) (p : AxisParams) (h : a.params = some p) : a.amax = p.amax := by simp [Axis.amax, h]
  have speeds : ∀ a ∈ members, ∃ p, a.params = some p ∧ 1 ≤ p.vmax := fun a ha =>
    (params a ha).imp fun p ⟨hp, _, _, _, _, _, vmax, _⟩ => ⟨hp, vmax⟩
  have accels : ∀ a ∈ members, ∃ p, a.params = some p ∧ 1 ≤ p.amax := fun a ha =>
    (params a ha).imp fun p ⟨hp, _, _, _, _, _, _, _, amax, _⟩ => ⟨hp, amax⟩
  exact ⟨clampBy_effective speed vmax speeds, clampBy_effective up amax accels, clampBy_effective down amax accels,
    clampBy_effective one amax accels⟩

end

/-- Settles O35. -/
theorem startFixesTheLimits : Obligations.StartFixesTheLimits := by
  intro members decel seg byCue params range one act delta
  obtain ⟨speed, up, down, hold⟩ := activeOf_limits params range one byCue
  refine ⟨fun i a member => pathLength_moves member, ?_, ⟨speed.positive, speed.most⟩, ⟨up.positive, up.most⟩,
    ⟨down.positive, down.most⟩, ⟨hold.positive, hold.most⟩,
    fun still => ⟨speed.standing still, up.standing still, down.standing still, hold.standing still⟩,
    fun i a p member hp => ⟨speed.safe i a p member hp, up.safe i a p member hp, down.safe i a p member hp,
      hold.safe i a p member hp⟩,
    ⟨speed.most, speed.bound, speed.attained⟩, ⟨up.most, up.bound, up.attained⟩, ⟨down.most, down.bound, down.attained⟩,
    ⟨hold.most, hold.bound, hold.attained⟩⟩
  refine (pathLength_spec (seg.moves members)).2.imp_right ?_
  rintro ⟨d, mem, e⟩
  obtain ⟨i, a, member, rfl⟩ := mem_moves.mp mem
  exact ⟨i, a, member, e⟩

end Sys2Proof.Machine
end

section
namespace Sys2Proof.Machine

/-! ## Path position, path speed and the way left to brake (03, R50, R54, R55, R58, R61) -/

/-! ### The path state of one active segment -/

/-- The states of a flight in which PathSound asks for more than position, speed and limits. -/
def FlightState.onPath (x : FlightState) : Prop := x = .moving ∨ x = .stopping ∨ x = .held

section
variable {x y : FlightState} {act : Active}

theorem PathSound.off_path (h : PathSound x act) (off : ¬y.onPath) : PathSound y act :=
  ⟨h.within, h.slowEnough, h.speedLimit, h.accel, h.decel, fun e => absurd (.inl e) off,
    fun e => absurd (.inr (.inl e)) off, fun e => absurd (.inr (.inr e)) off⟩

theorem PathSound.driven (h : PathSound x act) : act.Driven := ⟨h.accel, h.decel, h.speedLimit, h.slowEnough⟩

/-- What a start makes active stands at the start of its path, with limits of at least 1 (03, R50). -/
theorem activeOf_pathSound {ms : List Axis} {decel : Nat} {seg : Segment} {byCue : Bool}
    (params : ∀ a ∈ ms, ∃ p, a.params = some p ∧ p.InRange) (range : seg.InRange) (one : 1 ≤ decel) :
    PathSound .moving (activeOf ms decel seg byCue) := by
  obtain ⟨speed, up, down, -⟩ := activeOf_limits params range one byCue
  refine ⟨Nat.zero_le _, Nat.zero_le _, speed.positive, up.positive, down.positive, fun _ => ?_, nofun, nofun⟩
  show brakingDistance _ 0 ≤ _
  rw [brakingDistance_slow down.positive (Nat.zero_le _)]
  exact Nat.zero_le _

/-- A flight that stands can go on: from rest it brakes at once. -/
theorem PathSound.resumed (h : PathSound x act) : PathSound .moving { act with speed := 0, aStop := none } := by
  refine ⟨h.within, Nat.zero_le _, h.speedLimit, h.accel, h.decel, fun _ => ?_, nofun, nofun⟩
  show brakingDistance act.aDnEff 0 ≤ _
  rw [brakingDistance_slow h.decel (Nat.zero_le _)]
  exact Nat.zero_le _

/-- A MOVING flight can stop with a_stop, which is no smaller than a_dn_eff (03, R57). -/
theorem PathSound.held (h : PathSound .moving act) : PathSound .stopping { act with aStop := some act.stopRate } := by
  have harder : act.aDnEff ≤ act.stopRate := Nat.le_max_left _ _
  exact ⟨h.within, h.slowEnough, h.speedLimit, h.accel, h.decel, nofun,
    fun _ => ⟨_, rfl, harder, (brakingDistance_anti h.decel harder _).trans (h.braking rfl)⟩, nofun⟩

/-- A MOVING advance takes a speed that leaves room to brake (03, R54 to R56). -/
theorem PathSound.advanced (h : PathSound .moving act) (left : act.pathLen - act.pos ≠ 0) :
    PathSound .moving (act.advanced (movingSpeed act (act.pathLen - act.pos))) := by
  obtain ⟨-, limit, fits⟩ := (movingSpeed_chooses h.driven).sound h.driven (Nat.one_le_iff_ne_zero.mpr left)
  generalize movingSpeed act (act.pathLen - act.pos) = v at limit fits
  unfold SpeedFits at fits
  have within := h.within
  refine ⟨?_, limit, h.speedLimit, h.accel, h.decel, fun _ => ?_, nofun, nofun⟩
  · show act.pos + v ≤ act.pathLen
    omega
  · show brakingDistance act.aDnEff v ≤ act.pathLen - (act.pos + v)
    omega

/-- A braking flight keeps what it needs: each advance uses up the part of the braking distance that it travels (03, R52, R58). -/
theorem brakingDistance_spent {a v left : Nat} (pos : 1 ≤ a) (enough : brakingDistance a v ≤ left) :
    (v - a) + brakingDistance a (v - a) ≤ left := by
  rcases Nat.lt_or_ge v a with short | long
  · rw [Nat.sub_eq_zero_of_le short.le, brakingDistance_slow pos (Nat.zero_le _)]
    exact Nat.zero_le _
  · rwa [← brakingDistance_step pos long]

/-- A STOPPING advance at v − a_stop. -/
theorem PathSound.braked (h : PathSound .stopping act) : PathSound .stopping (act.advanced (stoppingSpeed act)) := by
  obtain ⟨a, stop, harder, enough⟩ := h.stopping rfl
  have speed : stoppingSpeed act = act.speed - a := by simp [stoppingSpeed, stop]
  have spent := brakingDistance_spent (h.decel.trans harder) enough
  have within := h.within
  have slow := h.slowEnough
  rw [speed]
  refine ⟨?_, ?_, h.speedLimit, h.accel, h.decel, nofun, fun _ => ⟨a, stop, harder, ?_⟩, nofun⟩
  · show act.pos + (act.speed - a) ≤ act.pathLen
    omega
  · show act.speed - a ≤ act.vEff
    omega
  · show brakingDistance a (act.speed - a) ≤ act.pathLen - (act.pos + (act.speed - a))
    omega

/-- A STOPPING advance at speed 0 comes to rest (03, R59). -/
theorem PathSound.stood (h : PathSound .stopping act) (stands : stoppingSpeed act = 0) :
    PathSound .held { act.advanced (stoppingSpeed act) with aStop := none } := by
  obtain ⟨within, slow, limit, accel, decel, -, -, -⟩ := h.braked
  exact ⟨within, slow, limit, accel, decel, nofun, nofun, fun _ => stands⟩

end

/-! ### The record of one flight -/

/-- The path state of a flight's active segment, where it has one, is sound. -/
def Flight.PathHolds (r : Flight) : Prop := ∀ act, r.active = some act → PathSound r.state act

section
variable {r r' : Flight}

theorem Flight.PathHolds.of_none (none : r.active = none) : r.PathHolds := fun act h => by rw [none] at h; cases h

theorem Flight.PathHolds.of_some {act : Active} (active : r.active = some act) (sound : PathSound r.state act) : r.PathHolds :=
  fun b h => by obtain rfl := Option.some.inj (active.symm.trans h); exact sound

/-- The record's segment stands, and no state comes that asks more of it. -/
theorem Flight.PathHolds.off_path (hr : r.PathHolds) (active : r'.active = r.active) (off : ¬r'.state.onPath) :
    r'.PathHolds := fun act h => (hr act (active ▸ h)).off_path off

/-- The record of a flight, and what of it is sound beside its path state. -/
structure Flight.Sound (r : Flight) : Prop where
  shaped : r.ShapedAs r.state
  range : FlightInRange r
  path : r.PathHolds

theorem StartMove.pathHolds {ms : List Axis} {byCue : Bool} (h : StartMove ms byCue r r')
    (params : ∀ a ∈ ms, ∃ p, a.params = some p ∧ p.InRange) (range : FlightInRange r) (path : r.PathHolds) : r'.PathHolds := by
  cases h with
  | rejected seg rest queue => exact path.off_path rfl (by simp [FlightState.onPath, Flight.rejected])
  | started seg rest queue =>
    have fits : seg.InRange := range.queue.2 seg (queue ▸ List.mem_cons_self)
    exact .of_some rfl (activeOf_pathSound params fits range.limits.1)

theorem FollowMove.pathHolds {ms : List Axis} (h : FollowMove ms r r')
    (params : ∀ a ∈ ms, ∃ p, a.params = some p ∧ p.InRange) (range : FlightInRange r) (path : r.PathHolds) : r'.PathHolds := by
  cases h with
  | ready => exact path.off_path rfl (by simp [FlightState.onPath])
  | start h => exact h.pathHolds params range path

theorem Flight.PathHolds.afterHold (path : r.PathHolds) (shaped : r.ShapedAs r.state) (cause : HoldCause) :
    (r.afterHold cause).PathHolds := by
  unfold Flight.afterHold
  split
  case h_6 moving =>
    intro act h
    obtain ⟨old, active, rfl⟩ := Option.map_eq_some_iff.mp h
    exact (moving ▸ path old active).held
  case h_7 dwell =>
    rw [dwell] at shaped
    exact .of_none shaped.1.1
  all_goals exact path

theorem FlightMove.pathHolds {ms : List Axis} (h : FlightMove ms r r')
    (params : ∀ a ∈ ms, ∃ p, a.params = some p ∧ p.InRange) (hr : r.Sound) : r'.PathHolds := by
  obtain ⟨shaped, range, path⟩ := hr
  cases h with
  | hold cause => exact path.afterHold shaped cause
  | start ready h => exact h.pathHolds params range path
  | resumeMoving act held active => exact .of_some rfl (path act active).resumed
  | resumeDwell held active | resumeReady held active => exact .of_none active
  | cancel => exact .of_none rfl
  | gate | append | flush | limits | countDwell | countArming => exact path
  | endDwell state h => exact h.pathHolds params range.undwelt path
  | advance act state active left => exact .of_some rfl (state ▸ (state ▸ path act active).advanced left)
  | complete | land => exact .of_none rfl
  | completeFollow act state active dwell h => exact h.pathHolds params (range.closed active) (.of_none rfl)
  | brake act state active => exact .of_some rfl (state ▸ (state ▸ path act active).braked)
  | stand act state active stands => exact .of_some rfl ((state ▸ path act active).stood stands)

/-- A change of a flight's record that leaves no new demand on its segment: the segment is gone, or it stands with the state, or
it stands in a state off the path. -/
def Flight.Calmed (r r' : Flight) : Prop :=
  r'.active = none ∨ r'.active = r.active ∧ (r'.state = r.state ∨ ¬r'.state.onPath)

theorem Flight.Calmed.pathHolds (h : r.Calmed r') (path : r.PathHolds) : r'.PathHolds := by
  rcases h with none | ⟨active, state | off⟩
  · exact .of_none none
  · intro act h
    rw [state]
    exact path act (active ▸ h)
  · exact path.off_path active off

theorem Flight.Calmed.of_kept (active : r'.active = r.active) (state : r'.state = r.state) : r.Calmed r' :=
  .inr ⟨active, .inl state⟩

theorem Flight.Calmed.refl (r : Flight) : r.Calmed r := .of_kept rfl rfl

theorem Flight.Calmed.afterTrip (r : Flight) (cause : TripCause) : r.Calmed (r.afterTrip cause) := by
  unfold Flight.afterTrip
  split
  case h_1 | h_2 => exact .of_kept rfl rfl
  all_goals exact .inr ⟨rfl, .inr (by simp [FlightState.onPath])⟩

theorem Flight.Calmed.afterAbort (r : Flight) (cause : HoldCause) : r.Calmed (r.afterAbort cause) := by
  unfold Flight.afterAbort
  split
  · exact .inr ⟨rfl, .inr (by simp [FlightState.onPath])⟩
  · exact .refl r

end

/-! ### Every act -/

section
variable {s t : State}

theorem FlightWork.calmed {g : FlightId} (work : FlightWork g s t) (own : (s.flight g).Calmed (t.flight g)) (f : FlightId) :
    (s.flight f).Calmed (t.flight f) := by
  by_cases e : f = g
  · subst e; exact own
  · rw [work.others f e]; exact .refl _

theorem Flight.Calmed.of_flights (h : t.flights = s.flights) (f : FlightId) : (s.flight f).Calmed (t.flight f) := by
  have same : t.flight f = s.flight f := by simp [State.flight, h]
  rw [same]; exact .refl _

theorem faultAxis_calmed (n : AxisId) (cause : FaultCause) (s : State) (f : FlightId) :
    (s.flight f).Calmed ((faultAxis n cause s).flight f) := by
  rcases faultAxis_cases n cause s with ⟨-, e⟩ | ⟨-, ⟨-, e⟩ | ⟨g, -, e⟩⟩ <;> rw [e]
  · exact .refl _
  · exact .of_flights rfl f
  · refine FlightWork.calmed (s := putAxis n _ s) (tripFlight_work g _ _) ?_ f
    rw [tripFlight_flight_same]; exact .afterTrip _ _

/-- Only a flown act, which knows the members' records, asks more of a segment. -/
theorem Act.flown_or_calmed (h : Act s t) : (∃ f, Flown f s t) ∨ ∀ f, (s.flight f).Calmed (t.flight f) := by
  cases h with
  | fly f h => exact .inl ⟨f, h⟩
  | quiet h => exact .inr (.of_flights h.flights)
  | trip g cause => exact .inr ((tripFlight_work g cause s).calmed (by rw [tripFlight_flight_same]; exact .afterTrip _ _))
  | abort g cause => exact .inr ((abortArming_work g cause s).calmed (by rw [abortArming_flight_same]; exact .afterAbort _ _))
  | park g => exact .inr ((parkFlight_work g s).calmed (by rw [parkFlight_flight_same]; exact .inl rfl))
  | resetFlight g => exact .inr ((resetTripped_work g s).calmed (by rw [resetTripped_flight_same]; exact .inl rfl))
  | fault n cause => exact .inr (faultAxis_calmed n cause s)
  | miss n kind =>
    rcases countMiss_cases n kind s with ⟨-, e⟩ | ⟨-, e⟩ <;> rw [e]
    · exact .inr (faultAxis_calmed n _ (s.updAxis n _))
    · exact .inr (.of_flights rfl)
  | axis n h => exact .inr (.of_flights h.flights)
  | track n pos => exact .inr (.of_flights rfl)
  | confirm n =>
    rcases confirmArming_cases n s with e | ⟨g, -, -, -, e⟩ <;> rw [e]
    · exact .inr fun _ => .refl _
    · exact .inr (((updFlight_work _ _ _).trans (putFlightState_work _ _ _)).calmed
        (.inr ⟨by simp, .inr (by simp [FlightState.onPath])⟩))
  | claim g st => exact .inr ((updFlight_work g _ s).calmed (by rw [State.updFlight_flight_same]; exact .of_kept rfl rfl))
  | release g => exact .inr ((updFlight_work g _ s).calmed (by rw [State.updFlight_flight_same]; exact .of_kept rfl rfl))
  | bind g ns _ fits =>
    refine .inr ((bindMembers_work g ns s).calmed ?_)
    rw [bindMembers_flight_same g ns s fits.state]
    exact .inr ⟨rfl, .inr (by simp [FlightState.onPath])⟩
  | unbind g =>
    refine .inr ((unbindMembers_work g s).calmed ?_)
    rw [unbindMembers_flight_same]
    exact .inr ⟨rfl, .inr (by simp [FlightState.onPath])⟩
  | configure n p => exact .inr (.of_flights (configureAxis_flights n p s))
  | slot k r => exact .inr (.of_flights rfl)
  | reset => exact .inr fun f => .inl (by rw [assertReset_flight]; rfl)

/-- A sound rig, with every record in range and in the shape of its state, on which every path state is sound. -/
structure PathRig (s : State) : Prop where
  rig : RigSound s
  records : RecordsInRange s
  shaped : FlightsShaped s
  paths : PathsSound s

/-- The members of a flight are configured, with parameters in range (01, R7, R5). -/
theorem memberAxes_params (rig : RigSound s) (records : RecordsInRange s) {f : FlightId} :
    ∀ a ∈ s.memberAxes f, ∃ p, a.params = some p ∧ p.InRange := by
  intro a mem
  obtain ⟨n, member, rfl⟩ := List.mem_map.mp mem
  have bound : (s.axis n).flight ≠ none := by rw [(rig.bound f n).mp member]; simp
  have present : (s.axis n).params ≠ none := fun none => rig.boundConfigured n bound ((rig.configured n).mpr none)
  obtain ⟨p, hp⟩ := Option.ne_none_iff_exists'.mp present
  exact ⟨p, hp, records.params n p hp⟩

theorem PathRig.sound (h : PathRig s) (f : FlightId) : (s.flight f).Sound :=
  ⟨(flightShaped_iff _).mp (h.shaped f), ((recordsInRange_iff s).mp h.records).1 f, h.paths f⟩

theorem Act.paths (h : Act s t) (hs : PathRig s) : PathsSound t := by
  rcases h.flown_or_calmed with ⟨g, flown⟩ | calmed
  · have params := memberAxes_params (h.rig hs.rig) (h.records hs.records) (f := g)
    intro f
    by_cases e : f = g
    · subst e; exact flown.move.pathHolds params (hs.sound f)
    · rw [flown.work.others f e]; exact hs.paths f
  · exact fun f => (calmed f).pathHolds (hs.paths f)

theorem Act.pathRig (h : Act s t) (hs : PathRig s) : PathRig t :=
  ⟨h.rig hs.rig, h.records hs.records, fun f => (flightShaped_iff _).mpr ((h.flightChange f).shaped (hs.sound f).shaped),
    h.paths hs⟩

theorem armTaken_paths (h : ArmTaken s t) (hs : PathsSound s) : PathsSound t := by
  obtain ⟨st, g, u, v, kind, ans, quiet, fits, rfl⟩ := h
  have armed := (armFlight_work g u).calmed (by rw [armFlight_flight_same]; exact .inr ⟨rfl, .inr (by simp [FlightState.onPath])⟩)
  exact fun f => (armed f).pathHolds ((Flight.Calmed.of_flights quiet.flights f).pathHolds (hs f))

theorem armTaken_pathRig (h : ArmTaken s t) (hs : PathRig s) : PathRig t :=
  ⟨armTaken_rig h hs.rig, armTaken_records h hs.records,
    fun f => (flightShaped_iff _).mpr ((armTaken_flightChange h f).shaped (hs.sound f).shaped), armTaken_paths h hs.paths⟩

end

/-- Settles O9: among the acts only a start, an advance and a stop ask more of a path state, and each leaves the way to brake that
03, R52 gives. -/
theorem stepKeepsPaths : Obligations.StepKeepsPaths := by
  intro s t rig shaped records paths h
  refine (step_keeps (P := PathRig) (fun s rest hs => ?_) (fun _ _ act => act.pathRig) (fun _ _ arm => armTaken_pathRig arm) h
    ⟨rig, records, shaped, paths⟩).paths
  obtain ⟨rig, records, shaped, paths⟩ := hs
  exact ⟨rig.of_pending rest,
    ⟨records.queue, records.active, records.limits, records.timers, records.params, records.slots⟩, shaped, paths⟩

end Sys2Proof.Machine
end

section
namespace Sys2Proof.Machine

/-! ## Holds on request (05, R83 to R86) -/

/-! ### The outputs and the notices of a hold -/

theorem afterHold_tripped (r : Flight) (cause : HoldCause) : (r.afterHold cause).state = .tripped ↔ r.state = .tripped := by
  unfold Flight.afterHold
  split <;> rename_i state <;> simp [state]

section
variable {f : FlightId} {cause : HoldCause} {s : State}

theorem holdFlight_driven (moves : (s.flight f).state = .moving ∨ (s.flight f).state = .dwell) :
    OutputsDriven s (holdFlight f cause s) := by
  unfold holdFlight
  rcases moves with state | state <;> rw [state] <;> exact putFlightState_drivenFrom rfl

theorem holdFlight_statesKept (stays : ¬((s.flight f).state = .moving ∨ (s.flight f).state = .dwell)) :
    StatesKept s (holdFlight f cause s) := by
  unfold holdFlight
  split <;> rename_i state
  case h_6 => exact absurd (.inl state) stays
  case h_7 => exact absurd (.inr state) stays
  case h_8 | h_9 => exact updFlight_statesKept s fun _ => rfl
  all_goals exact .refl s

end

theorem holdFlight_port (f : FlightId) (cause : HoldCause) (s : State) (u : Station) :
    (holdFlight f cause s).port u = (s.port u).stateRaised fun g =>
      decide (g = f) && decide ((s.flight g).state = .moving ∨ (s.flight g).state = .dwell) := by
  have ports := holdFlight_ports f cause s
  split at ports <;> rename_i moves
  · rw [port_congr ports, raiseState_port_raised]
    congr 1
    funext g
    by_cases e : g = f
    · subst e; simp [moves]
    · simp [e]
  · rw [port_congr ports, stateRaised_none]
    intro g
    by_cases e : g = f
    · subst e; simp [moves]
    · simp [e]

/-! ### Holds of a list of flights -/

section
variable (cause : HoldCause) (l : List FlightId)

theorem holdList_ports (nodup : l.Nodup) (s : State) (u : Station) :
    (l.foldl (fun t g => holdFlight g cause t) s).port u = (s.port u).stateRaised fun f =>
      decide (f ∈ l) && decide ((s.flight f).state = .moving ∨ (s.flight f).state = .dwell) := by
  induction l generalizing s with
  | nil => rw [stateRaised_none (by simp)]; rfl
  | cons g l ih =>
    obtain ⟨hg, nodup⟩ := List.nodup_cons.mp nodup
    rw [List.foldl_cons, ih nodup, holdFlight_port, stateRaised_stateRaised]
    congr 1
    funext f
    by_cases e : f = g
    · subst e; simp [hg]
    · simp [e, holdFlight_others g cause s f e]

/-- A flight that is TRIPPED behind holds was TRIPPED before them. -/
theorem holdList_tripped (nodup : l.Nodup) (s : State) (tripped : (l.foldl (fun t g => holdFlight g cause t) s).anyTripped = true) :
    s.anyTripped = true := by
  obtain ⟨f, state⟩ := (anyTripped_iff _).mp tripped
  refine (anyTripped_iff s).mpr ⟨f, ?_⟩
  rw [(holdList cause l nodup s).1 f] at state
  split at state
  · exact (afterHold_tripped _ cause).mp state
  · exact state

/-- Holds drive the outputs where one of them has an effect on its flight's state, and leave them alone elsewhere. -/
theorem holdList_outputs (nodup : l.Nodup) (s : State) :
    ((∃ f ∈ l, (s.flight f).state = .moving ∨ (s.flight f).state = .dwell) →
        OutputsDriven s (l.foldl (fun t g => holdFlight g cause t) s)) ∧
      ((¬∃ f ∈ l, (s.flight f).state = .moving ∨ (s.flight f).state = .dwell) →
        StatesKept s (l.foldl (fun t g => holdFlight g cause t) s)) := by
  induction l generalizing s with
  | nil => exact ⟨by simp, fun _ => .refl s⟩
  | cons g l ih =>
    obtain ⟨hg, nodup⟩ := List.nodup_cons.mp nodup
    obtain ⟨driven, kept⟩ := ih nodup (holdFlight g cause s)
    have later : (∃ f ∈ l, ((holdFlight g cause s).flight f).state = .moving ∨ ((holdFlight g cause s).flight f).state = .dwell) ↔
        ∃ f ∈ l, (s.flight f).state = .moving ∨ (s.flight f).state = .dwell :=
      exists_congr fun f => and_congr_right fun hf => by
        rw [holdFlight_others g cause s f (by rintro rfl; exact hg hf)]
    rw [later] at driven kept
    have tripped := holdList_tripped cause l nodup (holdFlight g cause s)
    rw [List.foldl_cons, List.exists_mem_cons_iff]
    by_cases own : (s.flight g).state = .moving ∨ (s.flight g).state = .dwell
    · refine ⟨fun _ => ?_, fun still => absurd (.inl own) still⟩
      by_cases more : ∃ f ∈ l, (s.flight f).state = .moving ∨ (s.flight f).state = .dwell
      · exact (holdFlight_driven own).again (driven more) tripped
      · exact (holdFlight_driven own).kept (kept more)
    · refine ⟨fun moves => ?_, fun still => ?_⟩
      · exact (holdFlight_statesKept own).driven (driven (moves.resolve_left own))
      · exact (holdFlight_statesKept own).trans (kept fun more => still (.inr more))

end

theorem holdEvery_port (cause : HoldCause) (s : State) (u : Station) :
    (holdEvery cause s).port u =
      (s.port u).stateRaised fun f => decide ((s.flight f).state = .moving ∨ (s.flight f).state = .dwell) := by
  have ports := holdList_ports cause _ allFlights_nodup s u
  simpa only [mem_allFlights, decide_true, Bool.true_and, holdEvery] using ports

theorem holdEvery_outputs (cause : HoldCause) (s : State) :
    if ∃ f, (s.flight f).state = .moving ∨ (s.flight f).state = .dwell then OutputsDriven s (holdEvery cause s)
    else OutputsKept s (holdEvery cause s) := by
  obtain ⟨driven, kept⟩ := holdList_outputs cause _ allFlights_nodup s
  simp only [mem_allFlights, true_and] at driven kept
  split
  · exact driven ‹_›
  · exact (kept ‹_›).outputs

/-! ### HOLD and HOLD-ALL -/

/-- Settles O43. -/
theorem holdTable : Obligations.HoldTable := by
  intro st s live
  refine ⟨fun flight noFlight => ?_, fun flight f hf => ?_, ?_⟩
  · refine exec_refused (i := .hold st flight) rfl live ?_
    show serveHold _ _ _ = _
    rw [serveHold, flightOf_none noFlight]
  · have served : serveRequest (.hold st flight) (markHeard st s) = accept (holdFlight f (.stationHold st) (markHeard st s)) := by
      show serveHold _ _ _ = _
      rw [serveHold, flightOf_of_names hf]
    have work := holdFlight_work f (.stationHold st) (markHeard st s)
    have ports := holdFlight_ports f (.stationHold st) (markHeard st s)
    refine ⟨_, exec_accepted (i := .hold st flight) rfl live served, holdFlight_flight_same f (.stationHold st) (markHeard st s),
      work.others, holdFlight_axes f (.stationHold st) (markHeard st s), work.motion.reply _ _ _, ?_⟩
    split <;> rename_i moves
    · rw [markHeard_flight, if_pos moves] at ports
      exact ⟨reply_ports_congr ports _ _ _, holdFlight_driven (s := markHeard st s) moves⟩
    · rw [markHeard_flight, if_neg moves] at ports
      exact ⟨reply_ports_congr ports _ _ _, (holdFlight_statesKept (s := markHeard st s) moves).outputs⟩
  · have served : serveRequest (.holdAll st) (markHeard st s) = accept (holdEvery (.holdAllStation st) (markHeard st s)) := rfl
    obtain ⟨flights, motion, axes⟩ := holdEvery_spec (.holdAllStation st) (markHeard st s)
    have outputs := holdEvery_outputs (.holdAllStation st) (markHeard st s)
    have ports := holdEvery_port (.holdAllStation st) (markHeard st s)
    generalize holdEvery (.holdAllStation st) (markHeard st s) = v at served flights motion axes outputs ports
    refine ⟨_, exec_accepted (i := .holdAll st) rfl live served, axes, motion.reply _ _ _, flights, outputs, fun u => ?_⟩
    simp only [answer, reply, startReply_port, ports, markHeard_flight]
    split <;> rfl

end Sys2Proof.Machine
end

section
namespace Sys2Proof.Machine

/-! ## Interpolated set-points (04, R64, R65) -/

/-- Truncation toward zero takes the sign of the displacement and divides its size (04, R64). -/
theorem travel_tdiv (d : Int) (pos len : Nat) :
    (d * (pos : Int)).tdiv len = d.sign * ((d.natAbs * pos / len : Nat) : Int) := by
  have size : d * (pos : Int) = d.sign * ((d.natAbs * pos : Nat) : Int) := by
    rw [Nat.cast_mul, ← mul_assoc, Int.sign_mul_natAbs]
  rw [size, Int.ofNat_tdiv]
  rcases Int.sign_trichotomy d with e | e | e <;> simp only [e, one_mul, zero_mul, neg_one_mul, Int.zero_tdiv, Int.neg_tdiv]

/-- The part of a displacement that is behind the member at path position s, by its size alone. -/
def travelled (size pos len : Nat) : Nat := size * pos / len

section
variable {size pos len : Nat}

theorem travelled_le (within : pos ≤ len) : travelled size pos len ≤ size :=
  Nat.div_le_of_le_mul (by rw [Nat.mul_comm len]; exact Nat.mul_le_mul_left size within)

theorem travelled_mono {pos' : Nat} (on : pos ≤ pos') : travelled size pos len ≤ travelled size pos' len :=
  Nat.div_le_div_right (Nat.mul_le_mul_left size on)

theorem travelled_all (long : 0 < len) : travelled size len len = size := Nat.mul_div_cancel size long

/-- The member with the largest displacement moves 1 µm every 16 fine counts (04, R65). -/
theorem travelled_longest (long : 0 < 16 * size) : travelled size pos (16 * size) = pos / 16 := by
  rw [travelled, Nat.mul_comm 16 size]
  exact Nat.mul_div_mul_left pos 16 (by omega)

end

section
variable {act : Active} {i : Nat} {start target : Int}

/-- The displacement of a member from its start to its target, which is its start where its record names none (03, R46). -/
theorem displacements_at (at_ : act.starts[i]? = some start) (aimed : target = (act.seg.target i).getD start) :
    (displacements act.seg act.starts)[i]? = some (target - start) := by
  simp only [displacements, List.getElem?_map, List.getElem?_zipIdx, at_, Option.map_some, Nat.zero_add, aimed]
  cases act.seg.target i <;> simp

/-- A set-point is the start and, toward the target, the part of the displacement that is behind the member (04, R64). -/
theorem setPointAt_eq (at_ : act.starts[i]? = some start) (aimed : target = (act.seg.target i).getD start) :
    setPointAt act i =
      start + (target - start).sign * (travelled (target - start).natAbs act.pos act.pathLen : Int) := by
  rw [setPointAt, List.getD_eq_getElem?_getD, List.getD_eq_getElem?_getD, displacements_at at_ aimed, at_]
  exact congrArg (start + ·) (travel_tdiv _ _ _)

end

/-- A point that lies a part of the way from a start to a target lies between them. -/
theorem part_way_between {start target : Int} {part : Nat} (within : part ≤ (target - start).natAbs) :
    min start target ≤ start + (target - start).sign * part ∧ start + (target - start).sign * part ≤ max start target := by
  rcases lt_trichotomy (target - start) 0 with back | still | on
  · rw [Int.sign_eq_neg_one_of_neg back]; omega
  · rw [still, Int.sign_zero]; omega
  · rw [Int.sign_eq_one_of_pos on]; omega

/-- Settles O42: the part of the displacement that is behind the member grows with s and is all of it at the end of the path. -/
theorem setPointsStayBetween : Obligations.SetPointsStayBetween := by
  intro act i start target _ long within at_ named
  have aimed : target = (act.seg.target i).getD start := named.trans (by cases act.seg.target i <;> rfl)
  have point := setPointAt_eq at_ aimed
  obtain ⟨low, high⟩ := part_way_between (travelled_le (size := (target - start).natAbs) within)
  rw [← point] at low high
  refine ⟨low, high, fun landed => ?_, fun begun => ?_, fun farthest => ?_, fun pos on _ => ?_⟩
  · rw [point, landed, travelled_all long, Int.sign_mul_natAbs]; omega
  · rw [point, begun]; simp [travelled]
  · rw [point, ← farthest, travelled_longest (by omega)]
  · rw [point, setPointAt_eq (act := { act with pos := pos }) at_ aimed]
    simp only [add_sub_cancel_left, Int.natAbs_mul, Int.natAbs_natCast]
    exact Nat.mul_le_mul_left _ (travelled_mono on)

end Sys2Proof.Machine
end

section
namespace Sys2Proof.Machine

/-! ## The set-points of a TRIPPED flight's members (04, R68; 05, R96)

A member of a TRIPPED flight is configured and a member of no other flight, so no advance, no tracking read, no ARM and no first
CONFIGURE-AXIS reaches its set-point. All else that a command does, but for the reset, leaves set-points alone. -/

/-- From s to t the axis's set-point stands. -/
def RopeStands (n : AxisId) (s t : State) : Prop := (t.axis n).setPoint = (s.axis n).setPoint

/-- The axis is a member of a flight that is TRIPPED. -/
structure TrippedMember (f : FlightId) (n : AxisId) (s : State) : Prop where
  rig : RigSound s
  member : n ∈ (s.flight f).members
  tripped : (s.flight f).state = .tripped

section
variable {f g : FlightId} {n : AxisId} {s t u : State}

theorem RopeStands.refl (n : AxisId) (s : State) : RopeStands n s s := rfl

theorem RopeStands.trans (h : RopeStands n s t) (k : RopeStands n t u) : RopeStands n s u := Eq.trans k h

theorem RopeStands.of_axis (h : t.axis n = s.axis n) : RopeStands n s t := congrArg Axis.setPoint h

theorem RopeStands.of_axes (h : t.axes = s.axes) : RopeStands n s t := .of_axis (by simp [State.axis, h])

theorem Quiet.rope (h : Quiet s t) : RopeStands n s t := .of_axes h.axes

/-- Where nothing changes that a start of the flight reads, its members' set-points stand. -/
theorem SegmentCarried.rope (h : SegmentCarried f s t) (member : n ∈ (s.flight f).members) : RopeStands n s t :=
  (h.ropes n member).1

theorem TrippedMember.quiet (h : TrippedMember f n s) (k : Quiet s t) : TrippedMember f n t := by
  have same : t.flight f = s.flight f := by simp [State.flight, k.flights]
  exact ⟨(Act.quiet k).rig h.rig, same ▸ h.member, same ▸ h.tripped⟩

/-- The flight of a member is the one that is TRIPPED. -/
theorem TrippedMember.state (h : TrippedMember f n s) (bound : (s.axis n).flight = some g) : (s.flight g).state = .tripped := by
  obtain rfl : f = g := Option.some.inj (((h.rig.bound f n).mp h.member).symm.trans bound)
  exact h.tripped

/-- A read does not make the set-point of a TRIPPED flight's member follow (04, R68). -/
theorem TrippedMember.untracked (h : TrippedMember f n s) : tracks s n = false := by
  simp [tracks, (h.rig.bound f n).mp h.member, h.tripped]

/-! ### Brakes, faults and misses -/

theorem brakedDown_rope_if {c : Prop} [Decidable c] (a : Axis) : (if c then a.brakedDown else a).setPoint = a.setPoint := by
  split
  · exact (brakedDown_rope a).1
  · rfl

theorem recovered_setPoint (a : Axis) : a.recovered.setPoint = a.setPoint := by
  unfold Axis.recovered
  split <;> rfl

/-- An axis's record rewritten but for its set-point. -/
theorem updAxis_rope {m : AxisId} {x : Axis → Axis} (same : ∀ a, (x a).setPoint = a.setPoint) :
    RopeStands n s (s.updAxis m x) := by
  unfold RopeStands
  rw [State.updAxis_axis]
  split
  · exact same _
  · rfl

theorem putAxis_rope {m : AxisId} {x : Axis → Axis} (same : ∀ a, (x a).setPoint = a.setPoint) :
    RopeStands n s (putAxis m x s) := updAxis_rope same

theorem tripFlight_rope (g : FlightId) (cause : TripCause) (s : State) : RopeStands n s (tripFlight g cause s) := by
  unfold RopeStands
  rw [tripFlight_axis]
  exact brakedDown_rope_if _

theorem faultAxis_rope (m : AxisId) (cause : FaultCause) (s : State) : RopeStands n s (faultAxis m cause s) := by
  have faulted : RopeStands n s (putAxis m (fun a => { a with state := .faulted, faultCause := some cause }) s) :=
    putAxis_rope fun _ => rfl
  rcases faultAxis_cases m cause s with ⟨-, e⟩ | ⟨-, ⟨-, e⟩ | ⟨g, -, e⟩⟩ <;> rw [e]
  · exact .refl n s
  · exact faulted
  · exact faulted.trans (tripFlight_rope _ _ _)

theorem countMiss_rope (m : AxisId) (kind : ExchangeKind) (s : State) : RopeStands n s (countMiss m kind s) := by
  have counted : RopeStands n s (s.updAxis m fun a => a.missed kind) := updAxis_rope fun _ => rfl
  rcases countMiss_cases m kind s with ⟨-, e⟩ | ⟨-, e⟩ <;> rw [e]
  · exact counted.trans (faultAxis_rope _ _ _)
  · exact counted

/-! ### Requests -/

/-- A driving request whose owner leaves the set-point alone. -/
theorem driving_rope {st : Station} {flight : Byte} {owner : FlightId → State × Answer}
    (h : ∀ g, RopeStands n s (owner g).1) : RopeStands n s (driving st flight s owner).1 := by
  rcases driving_cases st flight s owner with ⟨_, -, e⟩ | ⟨g, -, e⟩ <;> rw [e]
  · exact .refl n s
  · exact h g

theorem bindMembers_rope (g : FlightId) (ns : List AxisId) (s : State) : RopeStands n s (bindMembers g ns s) := by
  unfold RopeStands
  rw [bindMembers_axis]
  split
  · exact brakedDown_rope_if _
  · split <;> rfl

theorem unbindMembers_rope (g : FlightId) (s : State) : RopeStands n s (unbindMembers g s) := by
  unfold RopeStands
  rw [unbindMembers_axis]
  split <;> rfl

theorem parkFlight_rope (g : FlightId) (s : State) : RopeStands n s (parkFlight g s) := by
  unfold RopeStands
  rw [parkFlight_axis]
  exact brakedDown_rope_if _

theorem resetTripped_rope (g : FlightId) (s : State) : RopeStands n s (resetTripped g s) := by
  unfold RopeStands
  rw [resetTripped_axis]
  split
  · exact (brakedDown_rope _).1.trans (recovered_setPoint _)
  · rfl

/-- Only the configuration of an UNCONFIGURED axis sets its set-point (01, R6). -/
theorem configured_setPoint {a : Axis} (p : AxisParams) (state : a.state ≠ .unconfigured) :
    (a.configured p).setPoint = a.setPoint := by
  unfold Axis.configured
  dsimp only
  split
  · exact absurd ‹_› state
  all_goals split <;> rfl

theorem configureAxis_rope {m : AxisId} (p : AxisParams) (state : (s.axis n).state ≠ .unconfigured) :
    RopeStands n s (configureAxis m p s) := by
  unfold RopeStands
  rw [configureAxis_axis]
  split
  · exact configured_setPoint p state
  · rfl

/-- An ARM sets the set-points of its own flight's members alone (01, R13). -/
theorem armFlight_rope (out : n ∉ (s.flight g).members) : RopeStands n s (armFlight g s) :=
  .of_axis (by rw [armFlight_axis, if_neg out])

theorem resumeFlight_axes (g : FlightId) (s : State) : (resumeFlight g s).axes = s.axes := by
  unfold resumeFlight
  split <;> rfl

theorem serveArm_rope (h : TrippedMember f n s) (st : Station) (flight : Byte) : RopeStands n s (serveArm st flight s).1 := by
  rcases serveArm_answers st flight s with ⟨_, -, e⟩ | ⟨⟨g, fits, e⟩, -⟩ <;> rw [e]
  · exact .refl n s
  · refine armFlight_rope fun own => ?_
    have tripped := h.state ((h.rig.bound g n).mp own)
    simp [fits.parked] at tripped

theorem serveConfigureAxis_rope (h : TrippedMember f n s) (st : Station) (axis address : Byte) (lower upper vmax : Word)
    (amax : Half) (window : Word) (slot : Byte) :
    RopeStands n s (serveConfigureAxis st axis address lower upper vmax amax window slot s).1 := by
  have configured : (s.axis n).state ≠ .unconfigured :=
    h.rig.boundConfigured n (by rw [(h.rig.bound f n).mp h.member]; simp)
  unfold serveConfigureAxis
  dsimp only
  repeat' split
  any_goals exact .refl n s
  exact configureAxis_rope _ configured

theorem serveBind_rope (st : Station) (flight : Byte) (axes : List Byte) (s : State) :
    RopeStands n s (serveBind st flight axes s).1 := by
  unfold serveBind
  repeat' split
  any_goals exact .refl n s
  exact bindMembers_rope _ _ _

theorem serveReadLines_rope (member : n ∈ (s.flight f).members) (st : Station) (filters : Option Half) :
    RopeStands n s (serveReadLines st filters s).1 := by
  unfold serveReadLines
  dsimp only
  refine RopeStands.trans ?_ (updPort_quiet st _ _).rope
  split
  · exact (writeFilters_carried _).rope member
  · exact .refl n s

theorem serveClaim_rope (st : Station) (flight take : Byte) (s : State) : RopeStands n s (serveClaim st flight take s).1 := by
  unfold serveClaim
  repeat' split
  all_goals exact .refl n s

theorem serveRelease_rope (st : Station) (flight : Byte) (s : State) : RopeStands n s (serveRelease st flight s).1 := by
  unfold serveRelease
  repeat' split
  all_goals exact .refl n s

theorem serveSetFlightLimits_rope (st : Station) (flight : Byte) (decel lo hi : Half) (s : State) :
    RopeStands n s (serveSetFlightLimits st flight decel lo hi s).1 := by
  unfold serveSetFlightLimits
  split
  · exact .refl n s
  · exact driving_rope fun _ => .refl n s

theorem serveGo_rope (st : Station) (flight : Byte) (s : State) : RopeStands n s (serveGo st flight s).1 := by
  rcases serveGo_cases st flight s with ⟨_, -, e⟩ | ⟨g, -, e⟩ <;> rw [e]
  · exact .refl n s
  · exact .of_axes (startHead_axes _ _ _)

theorem serveResume_rope (st : Station) (flight : Byte) (s : State) : RopeStands n s (serveResume st flight s).1 := by
  refine driving_rope fun g => ?_
  dsimp only
  repeat' split
  any_goals exact .refl n s
  exact .of_axes (resumeFlight_axes g s)

theorem serveResetFlight_rope (st : Station) (flight : Byte) (s : State) :
    RopeStands n s (serveResetFlight st flight s).1 := by
  refine driving_rope fun g => ?_
  repeat' split
  any_goals exact .refl n s
  exact resetTripped_rope g s

theorem serveHold_rope (st : Station) (flight : Byte) (s : State) : RopeStands n s (serveHold st flight s).1 := by
  unfold serveHold
  split
  · exact .refl n s
  · exact .of_axes (holdFlight_axes _ _ _)

theorem serveStop_rope (member : n ∈ (s.flight f).members) (st : Station) (flight : Byte) :
    RopeStands n s (serveStop st flight s).1 := by
  unfold serveStop
  repeat' split
  · exact (SegmentCarried.foldl _ _ (fun _ _ _ => tripFlight_carried _) s).rope member
  · exact .refl n s
  · exact tripFlight_rope _ _ _

theorem serveAppend_rope (st : Station) (flight : Byte) (tag : Half) (presence : Byte) (t0 t1 t2 t3 vmax : Word)
    (aUp aDn dwell : Half) (start flags : Byte) (s : State) :
    RopeStands n s (serveAppend st flight tag presence t0 t1 t2 t3 vmax aUp aDn dwell start flags s).1 := by
  unfold serveAppend
  split
  · exact .refl n s
  · refine driving_rope fun g => ?_
    repeat' split
    all_goals exact .refl n s

theorem serveSetLink_rope (member : n ∈ (s.flight f).members) (link source condition action target : Byte) :
    RopeStands n s (serveSetLink link source condition action target s).1 := by
  unfold serveSetLink
  split
  · exact ((setLink_quiet _ _ _).carried.trans (takeInAnyOrder_carried takeEffect_carried)).rope member
  · exact .refl n s

theorem serveClearLink_rope (member : n ∈ (s.flight f).members) (link : Byte) :
    RopeStands n s (serveClearLink link s).1 := by
  unfold serveClearLink
  split
  · exact .refl n s
  · exact (clearEntry_carried _).rope member

theorem serveSetSlot_rope (slot input enabled : Byte) (tare high low slack : Half) (s : State) :
    RopeStands n s (serveSetSlot slot input enabled tare high low slack s).1 := by
  unfold serveSetSlot
  repeat' split
  all_goals exact .refl n s

theorem serveScan_rope (mode : Byte) (s : State) : RopeStands n s (serveScan mode s).1 := by
  unfold serveScan
  split
  · exact .refl n s
  · exact (startScan_quiet _ _).rope

theorem serveInject_rope (member : n ∈ (s.flight f).members) (slot : Byte) (raw : Half) :
    RopeStands n s (serveInject slot raw s).1 := by
  unfold serveInject
  repeat' split
  · exact .refl n s
  · exact (newResult_carried _ _ _).rope member
  · exact .refl n s

theorem serveReadFlight_rope (flight : Byte) (s : State) : RopeStands n s (serveReadFlight flight s).1 := by
  unfold serveReadFlight
  split <;> exact .refl n s

theorem serveReadAxis_rope (axis : Byte) (s : State) : RopeStands n s (serveReadAxis axis s).1 := by
  unfold serveReadAxis
  split <;> exact .refl n s

/-- No request moves the set-point of a TRIPPED flight's member. -/
theorem serveRequest_rope (h : TrippedMember f n s) (i : Instr) : RopeStands n s (serveRequest i s).1 := by
  cases i with
  | claim => exact serveClaim_rope _ _ _ s
  | release => exact serveRelease_rope _ _ s
  | bind => exact serveBind_rope _ _ _ s
  | unbind => exact driving_rope fun g => by split; exacts [unbindMembers_rope g s, .refl n s]
  | configureAxis => exact serveConfigureAxis_rope h _ _ _ _ _ _ _ _ _
  | setFlightLimits => exact serveSetFlightLimits_rope _ _ _ _ _ s
  | arm => exact serveArm_rope h _ _
  | go => exact serveGo_rope _ _ s
  | resume => exact serveResume_rope _ _ s
  | park => exact driving_rope fun g => by split; exacts [parkFlight_rope g s, .refl n s]
  | resetFlight => exact serveResetFlight_rope _ _ s
  | openCue | closeCue => exact driving_rope fun _ => .refl n s
  | cancel | flush => exact driving_rope fun g => by split <;> exact .refl n s
  | hold => exact serveHold_rope _ _ s
  | holdAll => exact (SegmentCarried.foldl _ _ (fun _ _ _ => holdFlight_carried _) s).rope h.member
  | stop => exact serveStop_rope h.member _ _
  | append => exact serveAppend_rope _ _ _ _ _ _ _ _ _ _ _ _ _ _ s
  | setLink => exact serveSetLink_rope h.member _ _ _ _ _
  | clearLink => exact serveClearLink_rope h.member _
  | setSlot => exact serveSetSlot_rope _ _ _ _ _ _ _ s
  | scan => exact serveScan_rope _ s
  | inject => exact serveInject_rope h.member _ _
  | status | readSlots => exact (updPort_quiet _ _ _).rope
  | readFlight => exact serveReadFlight_rope _ s
  | readAxis => exact serveReadAxis_rope _ s
  | readLines => exact serveReadLines_rope h.member _ _
  | _ => exact .refl n s

/-! ### Ports -/

theorem takeRequest_rope (h : TrippedMember f n s) (k : Quiet s u) {st : Station} {kind : Byte} (i : Instr) :
    RopeStands n s (takeRequest st kind (serveRequest i) u) :=
  (k.rope.trans (serveRequest_rope (h.quiet k) i)).trans (startReply_quiet _ _ _ _).rope

theorem takeFrame_rope (h : TrippedMember f n s) (k : Quiet s u) {st : Station} (fr : Frame) :
    RopeStands n s (takeFrame st fr u) := by
  unfold takeFrame
  split
  · exact k.rope.trans (startReply_quiet _ _ _ _).rope
  · exact k.rope.trans (startReply_quiet _ _ _ _).rope
  · exact takeRequest_rope h k _

theorem byteArrives_rope (h : TrippedMember f n s) {st : Station} (b : Byte) (stopOk : Bool) :
    RopeStands n s (byteArrives st b stopOk s) := by
  have ported (x : Port → Port) : Quiet s (s.updPort st x) := updPort_quiet st x s
  unfold byteArrives receiveByte completeFrame placeFrame
  dsimp only
  repeat' split
  any_goals exact (ported _).rope
  · exact .refl n s
  · exact takeFrame_rope h ((ported _).before rfl (markHeard_quiet _ _)) _
  · exact (((ported _).before rfl (markHeard_quiet _ _)).before rfl (updPort_quiet _ _ _)).rope

theorem replyEnds_rope (h : TrippedMember f n s) {st : Station} : RopeStands n s (replyEnds st s) := by
  unfold replyEnds
  split
  · exact (updPort_quiet _ _ _).rope
  · exact takeFrame_rope h (updPort_quiet _ _ _) _

/-! ### The axis bus and supervision -/

theorem missExchange_rope (x : Exchange) (s : State) : RopeStands n s (missExchange x s) := by
  unfold missExchange
  refine RopeStands.trans ?_ (passTurn_quiet _ _).rope
  split
  · exact .refl n s
  · exact countMiss_rope _ _ _

theorem writeEnds_rope (x : Exchange) (s : State) : RopeStands n s (writeEnds x s) := by
  unfold writeEnds
  refine RopeStands.trans ?_ (passTurn_quiet _ _).rope
  split
  · exact .refl n s
  · exact updAxis_rope fun _ => rfl

theorem faultAtRead_rope (x : Turn) (cause : FaultCause) (s : State) : RopeStands n s (faultAtRead x cause s) := by
  refine RopeStands.trans ?_ (faultAxis_rope _ _ _)
  rcases meetTrip_spec x cause s with e | e | ⟨g, other, -, -, -, e⟩ <;> rw [e]
  · exact .refl n s
  · exact .refl n s
  · exact tripFlight_rope g other { s with freeIndex := s.freeIndex + 1 }

theorem judge_rope {x : Turn} {verdict : Option FaultCause} {passed : State → State} (h : RopeStands n s (passed s)) :
    RopeStands n s (judge x verdict s passed) := by
  unfold judge
  split
  · exact faultAtRead_rope _ _ _
  · exact h

/-- A supervised read moves a set-point only where it tracks (04, R67, R68). -/
theorem supervise_rope (untracked : tracks s n = false) (x : Turn) (pos : Int) (status : Byte) :
    RopeStands n s (supervise x pos status s) := by
  have same : RopeStands n s s := .refl n s
  unfold supervise
  dsimp only
  split
  case h_1 | h_2 => exact same
  case h_3 =>
    repeat' split
    · exact faultAtRead_rope _ _ _
    · exact faultAtRead_rope _ _ _
    · rename_i tracked
      have other : n ≠ x.axis := fun e => by rw [e, tracked] at untracked; cases untracked
      exact .of_axis (by rw [State.updAxis_axis, if_neg other])
    · exact same
  case h_4 =>
    repeat' split
    · exact faultAtRead_rope _ _ _
    · have released : RopeStands n s (putAxis x.axis (fun a => { a with state := .following }) s) := putAxis_rope fun _ => rfl
      exact released.trans (judge_rope (.of_axis (confirmArming_axis _ _ _)))
    · exact judge_rope same
  case h_5 =>
    repeat' split
    · exact faultAtRead_rope _ _ _
    · exact judge_rope same
    · exact faultAtRead_rope _ _ _

theorem storeRead_tracks (m : AxisId) (pos : Int) (status : Byte) : tracks (storeRead m pos status s) n = tracks s n := by
  have bound : ((storeRead m pos status s).axis n).flight = (s.axis n).flight := by
    rw [storeRead, State.updAxis_axis]
    split <;> rfl
  unfold tracks
  rw [bound]
  rfl

theorem readArrives_rope (untracked : tracks s n = false) (x : Exchange) (position : Word) (status check : Byte) :
    RopeStands n s (readArrives x position status check s) := by
  unfold readArrives
  split
  · refine RopeStands.trans ?_ (passTurn_quiet _ _).rope
    split
    · exact .refl n s
    · have stored : RopeStands n s (storeRead x.axis position.toInt status s) := updAxis_rope fun _ => rfl
      exact stored.trans (supervise_rope (by rw [storeRead_tracks]; exact untracked) _ _ _)
  · exact missExchange_rope _ _

/-! ### The step expiry -/

theorem flightExpiry_tripped_rope (late : Station → Bool) (tripped : (s.flight f).state = .tripped) :
    RopeStands n s (flightExpiry late f s) := by
  have path (k : Nat) : pathStep f { s with freeIndex := k } = { s with freeIndex := k } := pathStep_tripped tripped
  have restraint (k : Nat) : restrainFlight f .stationSilent { s with freeIndex := k } = { s with freeIndex := k } :=
    restrainFlight_tripped tripped
  rcases flightExpiry_cases late f s with ⟨-, e⟩ | ⟨-, k, e | e⟩ <;> rw [e]
  · rw [pathStep_tripped tripped]; exact .refl n s
  · rw [path, restraint]; exact .refl n s
  · rw [restraint, path]; exact .refl n s

/-- The flight's own expiry does nothing, and those of the others do not reach its members (03, R44; 05, R96). -/
theorem stepAll_rope (h : TrippedMember f n s) : RopeStands n s (stepAll s) := by
  obtain ⟨u, before, behind⟩ := stepAll_flight h.rig f
  have own := flightExpiry_tripped_rope (n := n) (turnsSilent s) (before.flight ▸ h.tripped)
  have members : ((flightExpiry (turnsSilent s) f u).flight f).members = (s.flight f).members := by
    rw [flightExpiry_members, before.flight]
  exact ((RopeStands.of_axis (before.axes n h.member)).trans own).trans (.of_axis (behind.axes n (members ▸ h.member)))

/-! ### Every command -/

/-- Every command but the reset leaves the set-point of a TRIPPED flight's member. -/
theorem exec_rope {i : Instr} (h : TrippedMember f n s) (live : i ≠ .resetnAssert) (run : exec i s = .next t) :
    RopeStands n s t := by
  have same : RopeStands n s s := .refl n s
  have carried {v : State} (k : SegmentCarried f s v) : RopeStands n s v := k.rope h.member
  cases e : encodeRequest i with
  | some frame =>
    obtain ⟨st, kind, body⟩ := frame
    rw [exec_request s e] at run
    unfold onRequest at run
    cases run
    split
    · exact same
    · exact takeRequest_rope h (markHeard_quiet st s) i
  | none =>
    cases i <;> first | (cases e; done) | skip
    case readLines st filters => cases filters <;> cases e
    case resetnAssert => exact absurd rfl live
    case resetEnd => cases run; split; exacts [carried releaseReset_carried, same]
    case unknownKind st kind =>
      change execUnknownKind st kind s = _ at run
      unfold execUnknownKind onRequest at run
      split at run <;> cases run
      · exact same
      · split
        · exact same
        · exact (markHeard_quiet st s).rope.trans (startReply_quiet _ _ _ _).rope
    case byteReceived => cases run; split; exacts [same, byteArrives_rope h _ _]
    case gap => cases run; split; exacts [same, (updPort_quiet _ _ _).rope]
    case replySent => cases run; split; exacts [same, replyEnds_rope h]
    case stepExpiry => cases run; split; exacts [stepAll_rope h, same]
    case dwellExpiry g =>
      cases run
      repeat' split
      · exact .of_axes (endDwell_axes g s)
      all_goals exact same
    case brakeTimeout g =>
      cases run
      repeat' split
      · exact tripFlight_rope _ _ _
      all_goals exact same
    case silence st =>
      cases run
      split
      · exact carried ((countSilence_quiet _ _).carried.trans (restrainClaimed_carried _ _))
      · exact same
    case sndrPhaseExpiry => exact (execSndrPhaseExpiry_quiet run).rope
    case exchangeStart =>
      cases run
      repeat' split
      all_goals exact same
    case heldLine =>
      cases run
      repeat' split
      · exact same
      · exact (countMiss_rope _ _ _).trans (passTurn_quiet _ _).rope
      · exact same
    case writeComplete =>
      cases run
      repeat' split
      · exact writeEnds_rope _ _
      all_goals exact same
    case readComplete =>
      cases run
      repeat' split
      · exact readArrives_rope h.untracked _ _ _ _
      all_goals exact same
    case answerHoldTimeout =>
      cases run
      repeat' split
      · exact missExchange_rope _ _
      all_goals exact same
    case missedExchange =>
      cases run
      repeat' split
      · exact same
      · exact missExchange_rope _ _
      · exact same
    case rawLevelChange => cases run; exact carried (rawChange_carried _ _)
    case filterAccept =>
      cases run
      repeat' split
      · exact carried (acceptChange_carried _ _)
      all_goals exact same
    case lineSettle => cases run; split; exacts [carried (settleLine_carried _ _), same]
    case conversionComplete =>
      cases run
      repeat' split
      · exact same
      · exact carried ((newResult_carried _ _ _).trans (nextConversion_quiet _ _).carried)
      all_goals exact same

end

/-- Settles O13: the reset alone sets the set-point of a TRIPPED flight's member, and it makes the flight FREE. -/
theorem trippedRopesStand : Obligations.TrippedRopesStand := by
  intro s t f n rig h member tripped stays
  unfold step at h
  split at h
  · cases h; rfl
  · rename_i i rest _
    have held : TrippedMember f n { s with pending := rest } := ⟨rig.of_pending rest, member, tripped⟩
    refine exec_rope (s := { s with pending := rest }) held (fun reset => ?_) h
    rw [reset] at h
    cases h
    rw [assertReset_flight] at stays
    cases stays

end Sys2Proof.Machine
end

section
namespace Sys2Proof.Machine

/-! ## Recovery: RESUME, CANCEL and RESET-FLIGHT (05, R89 to R92, R99, R100) -/

/-! ### RESUME (05, R89 to R91) -/

/-- What a RESUME makes of the record of a HELD flight (05, R91). -/
def Flight.resumed (r : Flight) : Flight :=
  match r.active, r.dwell with
  | some act, _ => { r with state := .moving, active := some { act with speed := 0, aStop := none } }
  | none, some _ => { r with state := .dwell }
  | none, none => { r with state := .ready }

theorem resumeFlight_flight_same (f : FlightId) (s : State) : (resumeFlight f s).flight f = (s.flight f).resumed := by
  unfold resumeFlight Flight.resumed
  split <;> simp [*]

theorem resumeFlight_work (f : FlightId) (s : State) : FlightWork f s (resumeFlight f s) := by
  unfold resumeFlight
  split
  · exact (updFlight_work _ _ _).trans (putFlightState_work _ _ _)
  all_goals exact putFlightState_work _ _ _

theorem resumeFlight_ports (f : FlightId) (s : State) : (resumeFlight f s).ports = (raiseState f s).ports := by
  unfold resumeFlight
  split <;> exact raiseState_ports_congr f rfl

theorem resumeFlight_driven (f : FlightId) (s : State) : OutputsDriven s (resumeFlight f s) := by
  unfold resumeFlight
  split <;> exact putFlightState_drivenFrom rfl

/-- Settles O45. -/
theorem resumeGoesOn : Obligations.ResumeGoesOn := by
  intro st flight f s hf live claim enable clear
  have spelled : encodeRequest (.resume st flight) = some (st, kindResume, _) := rfl
  have persists : (markHeard st s).persists f = false := (markHeard_persists st s f).trans (not_persists clear)
  have served : serveRequest (.resume st flight) (markHeard st s) =
      if (s.flight f).state ≠ .held then refuse (markHeard st s) .badState
      else accept (resumeFlight f (markHeard st s)) := by
    show serveResume _ _ _ = _
    rw [serveResume, drivingEnabled_claimed (s := markHeard st s) hf claim ((markHeard_mayStart st s).trans enable), persists]
    rfl
  split
  · rename_i away
    exact exec_refused spelled live (served.trans (if_pos away))
  · rename_i held
    have work := resumeFlight_work f (markHeard st s)
    exact ⟨_, exec_accepted spelled live (served.trans (if_neg held)), work.others, resumeFlight_axes f _,
      reply_ports_congr (resumeFlight_ports f _) _ _ _, resumeFlight_driven f (markHeard st s), work.motion.reply _ _ _,
      resumeFlight_flight_same f (markHeard st s)⟩

/-! ### CANCEL (05, R92) -/

/-- Settles O46. -/
theorem cancelRule : Obligations.CancelRule := by
  intro st flight f s hf live
  have spelled : encodeRequest (.cancel st flight) = some (st, kindCancel, _) := rfl
  split
  · rename_i other
    exact exec_refused spelled live (driving_unclaimed (s := markHeard st s) hf other)
  · rename_i claim
    have served : serveRequest (.cancel st flight) (markHeard st s) =
        if (s.flight f).state = .held then
          accept (putFlightState f .ready ((markHeard st s).updFlight f fun r => { r with active := none, dwell := none }))
        else refuse (markHeard st s) .badState := driving_claimed (s := markHeard st s) hf (not_not.mp claim)
    split
    · rename_i away
      exact exec_refused spelled live (served.trans (if_neg away))
    · rename_i held
      have work := (updFlight_work f (fun r => { r with active := none, dwell := none }) (markHeard st s)).trans
        (putFlightState_work f .ready _)
      refine ⟨_, exec_accepted spelled live (served.trans (if_pos (not_not.mp held))), ?_, work.others, rfl,
        reply_ports_congr (raiseState_ports_congr f rfl) _ _ _, putFlightState_drivenFrom rfl, work.motion.reply _ _ _⟩
      refine (putFlightState_flight_same f .ready _).trans ?_
      rw [State.updFlight_flight_same]; rfl

/-! ### RESET-FLIGHT (05, R99, R100) -/

theorem blocksReset_iff (a : Axis) :
    blocksReset a = true ↔ (∃ b, a.driveStatus = some b ∧ b.getLsbD 6 = true) ∨ a.missedStreak = 3 := by
  rw [blocksReset, Bool.or_eq_true, Option.any_eq_true, decide_eq_true_eq]
  rfl

theorem recovered_brakedDown (a : Axis) :
    a.recovered.brakedDown =
      if a.state = .faulted then { a with state := .braked, faultCause := none } else a.brakedDown := by
  unfold Axis.recovered
  split
  · exact brakedDown_of_unreleased rfl
  · rfl

theorem resetTripped_ports (f : FlightId) (s : State) : (resetTripped f s).ports = (raiseState f s).ports := by
  rw [resetTripped, putFlightState_ports]
  exact raiseState_ports_congr f rfl

theorem resetTripped_driven (f : FlightId) (s : State) : OutputsDriven s (resetTripped f s) :=
  putFlightState_drivenFrom rfl

/-- Settles O47. -/
theorem resetFlightParks : Obligations.ResetFlightParks := by
  intro st flight f s hf live claim clear
  have spelled : encodeRequest (.resetFlight st flight) = some (st, kindResetFlight, _) := rfl
  have persists : (markHeard st s).persists f = false := (markHeard_persists st s f).trans (not_persists clear)
  have served : serveRequest (.resetFlight st flight) (markHeard st s) =
      if (s.flight f).state ≠ .tripped then refuse (markHeard st s) .badState
      else if ∃ n ∈ (s.flight f).members,
          (∃ b, (s.axis n).driveStatus = some b ∧ b.getLsbD 6 = true) ∨ (s.axis n).missedStreak = 3 then
        refuse (markHeard st s) .axisFault
      else accept (resetTripped f (markHeard st s)) := by
    show serveResetFlight _ _ _ = _
    rw [serveResetFlight, driving_claimed (s := markHeard st s) hf claim, persists]
    simp [State.memberAxes, blocksReset_iff]
  split
  · rename_i away
    exact exec_refused spelled live (served.trans (if_pos away))
  · rename_i tripped
    rw [if_neg tripped] at served
    split
    · rename_i blocked
      exact exec_refused spelled live (served.trans (if_pos blocked))
    · rename_i sound
      have work := resetTripped_work f (markHeard st s)
      refine ⟨_, exec_accepted spelled live (served.trans (if_neg sound)), resetTripped_flight_same f _, work.others,
        fun n => ?_, reply_ports_congr (resetTripped_ports f _) _ _ _, resetTripped_driven f (markHeard st s),
        work.motion.reply _ _ _⟩
      have axis := resetTripped_axis f (markHeard st s) n
      rw [recovered_brakedDown] at axis
      exact axis

end Sys2Proof.Machine
end

section
namespace Sys2Proof.Machine

/-! ## A recorded trip cause (05, R97, R100)

A flight leaves TRIPPED by its RESET-FLIGHT or by the reset alone. Of all that else reaches a TRIPPED flight, a further trip is
only noted, holds, starts and path work do nothing, and what rewrites the record leaves its state and its cause. -/

/-- The flight is TRIPPED with this cause. -/
structure TrippedBy (f : FlightId) (c : TripCause) (s : State) : Prop where
  state : (s.flight f).state = .tripped
  cause : (s.flight f).tripCause = some c

/-- The flight has left TRIPPED, as a RESET-FLIGHT or the reset leaves it. -/
structure TripCleared (f : FlightId) (s : State) : Prop where
  cause : (s.flight f).tripCause = none
  state : (s.flight f).state = .parked ∨ (s.flight f).state = .free

section
variable {f g : FlightId} {c : TripCause} {s t : State}

theorem TrippedBy.of_flights (h : TrippedBy f c s) (flights : t.flights = s.flights) : TrippedBy f c t := by
  have same : t.flight f = s.flight f := by simp [State.flight, flights]
  exact ⟨same ▸ h.state, same ▸ h.cause⟩

theorem TrippedBy.quiet (h : TrippedBy f c s) (k : Quiet s t) : TrippedBy f c t := h.of_flights k.flights

/-- Work on a flight that leaves its record alone where it is TRIPPED. -/
theorem TrippedBy.of_work (h : TrippedBy f c s) (work : FlightWork g s t)
    (idle : (s.flight g).state = .tripped → t.flight g = s.flight g) : TrippedBy f c t := by
  have same : t.flight f = s.flight f := by
    by_cases e : f = g
    · subst e; exact idle h.state
    · exact work.others f e
  exact ⟨same ▸ h.state, same ▸ h.cause⟩

/-- Work on a flight that is not TRIPPED. -/
theorem TrippedBy.elsewhere (h : TrippedBy f c s) (work : FlightWork g s t) (away : (s.flight g).state ≠ .tripped) :
    TrippedBy f c t := h.of_work work fun tripped => absurd tripped away

/-- A record rewritten but for its state and its trip cause. -/
theorem TrippedBy.updFlight (h : TrippedBy f c s) {x : Flight → Flight} (state : ∀ r, (x r).state = r.state)
    (cause : ∀ r, (x r).tripCause = r.tripCause) : TrippedBy f c (s.updFlight g x) := by
  constructor <;> rw [State.updFlight_flight] <;> split
  · exact (state _).trans h.state
  · exact h.state
  · exact (cause _).trans h.cause
  · exact h.cause

/-! ### Trips, holds and starts -/

/-- A further trip leaves the cause of the first (05, R97). -/
theorem TrippedBy.trip (h : TrippedBy f c s) (g : FlightId) (cause : TripCause) : TrippedBy f c (tripFlight g cause s) := by
  by_cases e : f = g
  · subst e
    simp only [tripFlight, h.state]
    exact h.updFlight (fun _ => rfl) fun _ => rfl
  · have same := tripFlight_others g cause s f e
    exact ⟨same ▸ h.state, same ▸ h.cause⟩

theorem TrippedBy.hold (h : TrippedBy f c s) (g : FlightId) (cause : HoldCause) : TrippedBy f c (holdFlight g cause s) :=
  h.of_work (holdFlight_work g cause s) fun tripped => by simp only [holdFlight, tripped]

theorem TrippedBy.restrain (h : TrippedBy f c s) (g : FlightId) (cause : HoldCause) :
    TrippedBy f c (restrainFlight g cause s) :=
  h.of_work (restrainFlight_work g cause s) fun tripped => by rw [restrainFlight_tripped tripped]

theorem TrippedBy.path (h : TrippedBy f c s) (g : FlightId) : TrippedBy f c (pathStep g s) :=
  h.of_work (pathStep_work g s) fun tripped => by rw [pathStep_tripped tripped]

theorem TrippedBy.cue (h : TrippedBy f c s) (g : FlightId) : TrippedBy f c (cueFlight g s) := by
  unfold cueFlight
  dsimp only
  repeat' split
  · rename_i fits
    simp only [Bool.and_eq_true, decide_eq_true_eq] at fits
    exact h.elsewhere (startHead_work true g s) (by simp [fits])
  all_goals exact h

/-! ### The authority unit, the reflex table and the lines -/

theorem TrippedBy.foldl {α : Type} {l : List α} {act : State → α → State}
    (keeps : ∀ t a, TrippedBy f c t → TrippedBy f c (act t a)) (h : TrippedBy f c s) : TrippedBy f c (l.foldl act s) := by
  induction l generalizing s with
  | nil => exact h
  | cons a l ih => exact ih (keeps s a h)

theorem TrippedBy.anyOrder {α : Type} {l : List α} {act : α → State → State}
    (keeps : ∀ a t, TrippedBy f c t → TrippedBy f c (act a t)) (h : TrippedBy f c s) :
    TrippedBy f c (takeInAnyOrder l act s) :=
  takeInAnyOrder_keeps (TrippedBy f c) l act s (fun _ _ ht => ht.of_flights rfl) (fun a _ => keeps a) h

theorem TrippedBy.restrainClaimed (h : TrippedBy f c s) (st : Station) (cause : HoldCause) :
    TrippedBy f c (restrainClaimed st cause s) :=
  h.foldl fun t g ht => by split; exacts [ht.restrain g cause, ht]

theorem TrippedBy.recompute (h : TrippedBy f c s) (st : Station) : TrippedBy f c (recomputeEnable st s) := by
  have stored : TrippedBy f c (s.setEnable st (enableOf s st)) := h.quiet (setEnable_quiet _ _ _)
  unfold recomputeEnable
  dsimp only
  split
  · exact stored.restrainClaimed st .enableLost
  · exact stored

theorem takeEffect_trippedBy (e : Effect) (s : State) (h : TrippedBy f c s) : TrippedBy f c (takeEffect e s) := by
  cases e with
  | hold g cause => exact h.hold g cause
  | trip g cause => exact h.trip g cause
  | cue g => exact h.cue g
  | recompute st => exact h.recompute st

theorem TrippedBy.source (h : TrippedBy f c s) (src : Source) (occurs : Condition → Bool) (recomputes : Bool) :
    TrippedBy f c (sourceEvent src occurs recomputes s) := h.anyOrder takeEffect_trippedBy

theorem TrippedBy.writeLink (h : TrippedBy f c s) (i : LinkId) (l : Link) : TrippedBy f c (writeLink i l s) :=
  (h.quiet (setLink_quiet i (some l) s)).anyOrder takeEffect_trippedBy

theorem TrippedBy.clearEntry (h : TrippedBy f c s) (i : LinkId) : TrippedBy f c (clearEntry i s) := by
  have cleared : TrippedBy f c (s.setLink i none) := h.quiet (setLink_quiet _ _ _)
  unfold Machine.clearEntry
  dsimp only
  split
  · exact cleared.recompute _
  · exact cleared

theorem TrippedBy.acceptChange (h : TrippedBy f c s) (n : LineId) (level : Level) :
    TrippedBy f c (acceptChange n level s) :=
  (h.of_flights (t := raiseLineChange n (s.updLine n _)) rfl).source _ _ _

theorem settleLine_trippedBy (n : LineId) (s : State) (h : TrippedBy f c s) : TrippedBy f c (settleLine n s) :=
  (h.quiet (updLine_quiet _ _ _)).source _ _ _

theorem takeRaw_trippedBy (n : LineId) (s : State) (h : TrippedBy f c s) : TrippedBy f c (takeRaw n s) := by
  unfold takeRaw
  repeat' split
  · exact settleLine_trippedBy n s h
  · exact h
  · exact h.acceptChange n _

theorem TrippedBy.rawChange (h : TrippedBy f c s) (n : LineId) (level : Level) : TrippedBy f c (rawChange n level s) := by
  have moved : TrippedBy f c (s.updLine n fun l => { l with raw := level }) := h.quiet (updLine_quiet _ _ _)
  unfold Machine.rawChange filterRaw
  dsimp only
  repeat' split
  · exact h
  · exact moved
  · exact moved
  · exact moved.quiet (updLine_quiet _ _ _)
  · exact takeRaw_trippedBy n _ moved

theorem TrippedBy.writeFilters (h : TrippedBy f c s) (w : Half) : TrippedBy f c (writeFilters w s) :=
  TrippedBy.anyOrder takeRaw_trippedBy (h.of_flights rfl)

theorem TrippedBy.newResult (h : TrippedBy f c s) (k : SlotId) (raw : Nat) (origin : Origin) :
    TrippedBy f c (newResult k raw origin s) :=
  (h.of_flights (t := raiseFresh k (s.updSlot k _)) rfl).source _ _ _

theorem TrippedBy.releaseReset (h : TrippedBy f c s) : TrippedBy f c (releaseReset s) :=
  TrippedBy.anyOrder settleLine_trippedBy (h.of_flights rfl)

/-! ### The axis bus and supervision -/

theorem TrippedBy.fault (h : TrippedBy f c s) (n : AxisId) (cause : FaultCause) : TrippedBy f c (faultAxis n cause s) := by
  have faulted : TrippedBy f c (putAxis n (fun a => { a with state := .faulted, faultCause := some cause }) s) :=
    h.of_flights rfl
  rcases faultAxis_cases n cause s with ⟨-, e⟩ | ⟨-, ⟨-, e⟩ | ⟨g, -, e⟩⟩ <;> rw [e]
  · exact h
  · exact faulted
  · exact faulted.trip g _

theorem TrippedBy.miss (h : TrippedBy f c s) (n : AxisId) (kind : ExchangeKind) : TrippedBy f c (countMiss n kind s) := by
  have counted : TrippedBy f c (s.updAxis n fun a => a.missed kind) := h.of_flights rfl
  rcases countMiss_cases n kind s with ⟨-, e⟩ | ⟨-, e⟩ <;> rw [e]
  · exact counted.fault n _
  · exact counted

theorem TrippedBy.missExchange (h : TrippedBy f c s) (x : Exchange) : TrippedBy f c (missExchange x s) := by
  unfold Machine.missExchange
  refine TrippedBy.quiet ?_ (passTurn_quiet _ _)
  split
  · exact h
  · exact h.miss _ _

theorem TrippedBy.writeEnds (h : TrippedBy f c s) (x : Exchange) : TrippedBy f c (writeEnds x s) := by
  unfold Machine.writeEnds
  refine TrippedBy.quiet ?_ (passTurn_quiet _ _)
  split
  · exact h
  · exact h.of_flights rfl

theorem TrippedBy.faultAtRead (h : TrippedBy f c s) (x : Turn) (cause : FaultCause) : TrippedBy f c (faultAtRead x cause s) := by
  refine TrippedBy.fault ?_ _ _
  rcases meetTrip_spec x cause s with e | e | ⟨g, other, -, -, -, e⟩ <;> rw [e]
  · exact h
  · exact h.of_flights rfl
  · exact (h.of_flights (t := { s with freeIndex := s.freeIndex + 1 }) rfl).trip g other

/-- The read that completes an arming reaches no TRIPPED flight (01, R14). -/
theorem TrippedBy.confirm (h : TrippedBy f c s) (n : AxisId) : TrippedBy f c (confirmArming n s) := by
  rcases confirmArming_cases n s with e | ⟨g, -, arming, -, e⟩ <;> rw [e]
  · exact h
  · exact h.elsewhere ((updFlight_work g _ s).trans (putFlightState_work g _ _)) (by simp [arming])

theorem TrippedBy.judge (h : TrippedBy f c s) {x : Turn} {verdict : Option FaultCause} {passed : State → State}
    (k : TrippedBy f c (passed s)) : TrippedBy f c (judge x verdict s passed) := by
  unfold Machine.judge
  split
  · exact h.faultAtRead _ _
  · exact k

theorem TrippedBy.supervise (h : TrippedBy f c s) (x : Turn) (pos : Int) (status : Byte) :
    TrippedBy f c (supervise x pos status s) := by
  unfold Machine.supervise
  dsimp only
  split
  case h_1 | h_2 => exact h
  case h_3 =>
    repeat' split
    · exact h.faultAtRead _ _
    · exact h.faultAtRead _ _
    · exact h.of_flights rfl
    · exact h
  case h_4 =>
    have released : TrippedBy f c (putAxis x.axis (fun a => { a with state := .following }) s) := h.of_flights rfl
    repeat' split
    · exact h.faultAtRead _ _
    · exact released.judge (released.confirm _)
    · exact h.judge h
  case h_5 =>
    repeat' split
    · exact h.faultAtRead _ _
    · exact h.judge h
    · exact h.faultAtRead _ _

theorem TrippedBy.readArrives (h : TrippedBy f c s) (x : Exchange) (position : Word) (status check : Byte) :
    TrippedBy f c (readArrives x position status check s) := by
  unfold Machine.readArrives
  split
  · refine TrippedBy.quiet ?_ (passTurn_quiet _ _)
    split
    · exact h
    · exact (h.of_flights (t := storeRead _ _ _ s) rfl).supervise _ _ _
  · exact h.missExchange x

/-! ### The step expiry -/

theorem TrippedBy.flightExpiry (h : TrippedBy f c s) (late : Station → Bool) (g : FlightId) :
    TrippedBy f c (flightExpiry late g s) := by
  have counted (k : Nat) : TrippedBy f c { s with freeIndex := k } := h.of_flights rfl
  rcases flightExpiry_cases late g s with ⟨-, e⟩ | ⟨-, k, e | e⟩ <;> rw [e]
  · exact h.path g
  · exact ((counted k).path g).restrain g _
  · exact ((counted k).restrain g _).path g

theorem TrippedBy.stepAll (h : TrippedBy f c s) : TrippedBy f c (stepAll s) := by
  unfold Machine.stepAll
  dsimp only
  refine TrippedBy.quiet (TrippedBy.quiet ?_ (roundStep_quiet _)) (scannerStep_quiet _)
  refine TrippedBy.foldl (fun t g ht => ht.flightExpiry _ g) ?_
  exact TrippedBy.foldl (fun t st ht => ht.quiet (countSilence_quiet st t)) (h.of_flights rfl)

/-! ### Requests -/

/-- A TRIPPED flight behind a command: it is TRIPPED with the same cause, or has left TRIPPED. -/
def TripAnswered (f : FlightId) (c : TripCause) (s : State) : Prop := TrippedBy f c s ∨ TripCleared f s

theorem TripAnswered.of_flights (h : TripAnswered f c s) (flights : t.flights = s.flights) : TripAnswered f c t := by
  rcases h with h | ⟨cause, state⟩
  · exact .inl (h.of_flights flights)
  · have same : t.flight f = s.flight f := by simp [State.flight, flights]
    exact .inr ⟨same ▸ cause, same ▸ state⟩

theorem TripAnswered.quiet (h : TripAnswered f c s) (k : Quiet s t) : TripAnswered f c t := h.of_flights k.flights

/-- A driving request whose owner keeps the trip. -/
theorem TrippedBy.driving (h : TrippedBy f c s) {st : Station} {flight : Byte} {owner : FlightId → State × Answer}
    (k : ∀ g, TrippedBy f c (owner g).1) : TrippedBy f c (driving st flight s owner).1 := by
  rcases driving_cases st flight s owner with ⟨_, -, e⟩ | ⟨g, -, e⟩ <;> rw [e]
  · exact h
  · exact k g

theorem TrippedBy.claim (h : TrippedBy f c s) (st : Station) (flight take : Byte) :
    TrippedBy f c (serveClaim st flight take s).1 := by
  have claimed (g : FlightId) : TrippedBy f c (setClaim g (some st) s) := h.updFlight (fun _ => rfl) fun _ => rfl
  unfold serveClaim
  repeat' split
  any_goals exact h
  all_goals exact claimed _

theorem TrippedBy.release (h : TrippedBy f c s) (st : Station) (flight : Byte) :
    TrippedBy f c (serveRelease st flight s).1 := by
  unfold serveRelease
  repeat' split
  any_goals exact h
  exact h.updFlight (fun _ => rfl) fun _ => rfl

theorem TrippedBy.bind (h : TrippedBy f c s) (st : Station) (flight : Byte) (axes : List Byte) :
    TrippedBy f c (serveBind st flight axes s).1 := by
  unfold serveBind
  repeat' split
  any_goals exact h
  rename_i g ns _ _ _ state _ _
  exact h.elsewhere (bindMembers_work g ns s) fun tripped => state (by simp [tripped])

theorem TrippedBy.configureAxis (h : TrippedBy f c s) (st : Station) (axis address : Byte) (lower upper vmax : Word)
    (amax : Half) (window : Word) (slot : Byte) :
    TrippedBy f c (serveConfigureAxis st axis address lower upper vmax amax window slot s).1 := by
  unfold serveConfigureAxis
  dsimp only
  repeat' split
  any_goals exact h
  exact h.of_flights (configureAxis_flights _ _ s)

theorem TrippedBy.limits (h : TrippedBy f c s) (st : Station) (flight : Byte) (decel lo hi : Half) :
    TrippedBy f c (serveSetFlightLimits st flight decel lo hi s).1 := by
  unfold serveSetFlightLimits
  split
  · exact h
  · exact h.driving fun g => h.updFlight (fun _ => rfl) fun _ => rfl

theorem TrippedBy.arm (h : TrippedBy f c s) (st : Station) (flight : Byte) : TrippedBy f c (serveArm st flight s).1 := by
  rcases serveArm_answers st flight s with ⟨_, -, e⟩ | ⟨⟨g, fits, e⟩, -⟩ <;> rw [e]
  · exact h
  · exact h.elsewhere (armFlight_work g s) (by simp [fits.parked])

theorem TrippedBy.go (h : TrippedBy f c s) (st : Station) (flight : Byte) : TrippedBy f c (serveGo st flight s).1 := by
  rcases serveGo_cases st flight s with ⟨_, -, e⟩ | ⟨g, ready, e⟩ <;> rw [e]
  · exact h
  · exact h.elsewhere (startHead_work false g s) (by simp [ready])

theorem TrippedBy.resume (h : TrippedBy f c s) (st : Station) (flight : Byte) : TrippedBy f c (serveResume st flight s).1 := by
  refine h.driving fun g => ?_
  dsimp only
  repeat' split
  any_goals exact h
  rename_i held _
  exact h.elsewhere (resumeFlight_work g s) (by simp [not_not.mp held])

theorem TrippedBy.cancel (h : TrippedBy f c s) (st : Station) (flight : Byte) : TrippedBy f c (serveCancel st flight s).1 := by
  refine h.driving fun g => ?_
  split
  · rename_i held
    exact h.elsewhere ((updFlight_work g _ s).trans (putFlightState_work g _ _)) (by simp [held])
  · exact h

theorem TrippedBy.park (h : TrippedBy f c s) (st : Station) (flight : Byte) : TrippedBy f c (servePark st flight s).1 := by
  refine h.driving fun g => ?_
  split
  · rename_i state
    exact h.elsewhere (parkFlight_work g s) fun tripped => by simp [tripped] at state
  · exact h

theorem TrippedBy.unbind (h : TrippedBy f c s) (st : Station) (flight : Byte) : TrippedBy f c (serveUnbind st flight s).1 := by
  refine h.driving fun g => ?_
  split
  · rename_i parked
    exact h.elsewhere (unbindMembers_work g s) (by simp [parked])
  · exact h

/-- A RESET-FLIGHT clears the trip of its own flight and leaves those of the others (05, R100). -/
theorem TrippedBy.resetFlight (h : TrippedBy f c s) (st : Station) (flight : Byte) :
    TripAnswered f c (serveResetFlight st flight s).1 := by
  have same : TripAnswered f c s := .inl h
  have taken (g : FlightId) : TripAnswered f c (resetTripped g s) := by
    by_cases e : f = g
    · subst e
      exact .inr ⟨by rw [resetTripped_flight_same], .inl (by rw [resetTripped_flight_same])⟩
    · have record := (resetTripped_work g s).others f e
      exact .inl ⟨record ▸ h.state, record ▸ h.cause⟩
  rcases driving_cases st flight s _ with ⟨_, -, e⟩ | ⟨g, -, e⟩ <;> rw [serveResetFlight, e]
  · exact same
  · repeat' split
    any_goals exact same
    exact taken g

theorem TrippedBy.holdRequest (h : TrippedBy f c s) (st : Station) (flight : Byte) :
    TrippedBy f c (serveHold st flight s).1 := by
  unfold serveHold
  split
  · exact h
  · exact h.hold _ _

theorem TrippedBy.stop (h : TrippedBy f c s) (st : Station) (flight : Byte) : TrippedBy f c (serveStop st flight s).1 := by
  unfold serveStop
  repeat' split
  · exact h.foldl fun t g ht => ht.trip g _
  · exact h
  · exact h.trip _ _

theorem TrippedBy.append (h : TrippedBy f c s) (st : Station) (flight : Byte) (tag : Half) (presence : Byte)
    (t0 t1 t2 t3 vmax : Word) (aUp aDn dwell : Half) (start flags : Byte) :
    TrippedBy f c (serveAppend st flight tag presence t0 t1 t2 t3 vmax aUp aDn dwell start flags s).1 := by
  unfold serveAppend
  split
  · exact h
  · refine h.driving fun g => ?_
    repeat' split
    any_goals exact h
    exact h.updFlight (fun _ => rfl) fun _ => rfl

theorem TrippedBy.flush (h : TrippedBy f c s) (st : Station) (flight : Byte) : TrippedBy f c (serveFlush st flight s).1 := by
  refine h.driving fun g => ?_
  split
  · exact h
  · exact h.updFlight (fun _ => rfl) fun _ => rfl

theorem TrippedBy.setLink (h : TrippedBy f c s) (link source condition action target : Byte) :
    TrippedBy f c (serveSetLink link source condition action target s).1 := by
  unfold serveSetLink
  split
  · exact h.writeLink _ _
  · exact h

theorem TrippedBy.clearLink (h : TrippedBy f c s) (link : Byte) : TrippedBy f c (serveClearLink link s).1 := by
  unfold serveClearLink
  split
  · exact h
  · exact h.clearEntry _

theorem TrippedBy.setSlot (h : TrippedBy f c s) (slot input enabled : Byte) (tare high low slack : Half) :
    TrippedBy f c (serveSetSlot slot input enabled tare high low slack s).1 := by
  unfold serveSetSlot
  repeat' split
  any_goals exact h
  exact h.of_flights rfl

theorem TrippedBy.scan (h : TrippedBy f c s) (mode : Byte) : TrippedBy f c (serveScan mode s).1 := by
  unfold serveScan
  split
  · exact h
  · exact h.quiet (startScan_quiet _ _)

theorem TrippedBy.inject (h : TrippedBy f c s) (slot : Byte) (raw : Half) : TrippedBy f c (serveInject slot raw s).1 := by
  unfold serveInject
  repeat' split
  any_goals exact h
  exact h.newResult _ _ _

theorem TrippedBy.readFlight (h : TrippedBy f c s) (flight : Byte) : TrippedBy f c (serveReadFlight flight s).1 := by
  unfold serveReadFlight
  split <;> exact h

theorem TrippedBy.readAxis (h : TrippedBy f c s) (axis : Byte) : TrippedBy f c (serveReadAxis axis s).1 := by
  unfold serveReadAxis
  split <;> exact h

theorem TrippedBy.readLines (h : TrippedBy f c s) (st : Station) (filters : Option Half) :
    TrippedBy f c (serveReadLines st filters s).1 := by
  unfold serveReadLines
  dsimp only
  refine TrippedBy.quiet ?_ (updPort_quiet st _ _)
  split
  · exact h.writeFilters _
  · exact h

/-- Of the requests a RESET-FLIGHT alone clears a trip. -/
theorem TrippedBy.request (h : TrippedBy f c s) (i : Instr) : TripAnswered f c (serveRequest i s).1 := by
  cases i
  case resetFlight st flight => exact h.resetFlight st flight
  all_goals refine .inl ?_
  case claim => exact h.claim _ _ _
  case release => exact h.release _ _
  case bind => exact h.bind _ _ _
  case unbind => exact h.unbind _ _
  case configureAxis => exact h.configureAxis _ _ _ _ _ _ _ _ _
  case setFlightLimits => exact h.limits _ _ _ _ _
  case arm => exact h.arm _ _
  case go => exact h.go _ _
  case resume => exact h.resume _ _
  case cancel => exact h.cancel _ _
  case park => exact h.park _ _
  case openCue | closeCue => exact h.driving fun g => h.updFlight (fun _ => rfl) fun _ => rfl
  case hold => exact h.holdRequest _ _
  case holdAll => exact h.foldl fun t g ht => ht.hold g _
  case stop => exact h.stop _ _
  case append => exact h.append _ _ _ _ _ _ _ _ _ _ _ _ _ _
  case flush => exact h.flush _ _
  case setLink => exact h.setLink _ _ _ _ _
  case clearLink => exact h.clearLink _
  case setSlot => exact h.setSlot _ _ _ _ _ _ _
  case scan => exact h.scan _
  case inject => exact h.inject _ _
  case status | readSlots => exact h.quiet (updPort_quiet _ _ _)
  case readFlight => exact h.readFlight _
  case readAxis => exact h.readAxis _
  case readLines => exact h.readLines _ _
  all_goals exact h

/-! ### Ports -/

theorem TrippedBy.takeFrame (h : TrippedBy f c s) (st : Station) (fr : Frame) : TripAnswered f c (takeFrame st fr s) := by
  unfold Machine.takeFrame
  split
  · exact .inl (h.quiet (startReply_quiet _ _ _ _))
  · exact .inl (h.quiet (startReply_quiet _ _ _ _))
  · exact (h.request _).quiet (startReply_quiet _ _ _ _)

theorem TrippedBy.byteArrives (h : TrippedBy f c s) (st : Station) (b : Byte) (stopOk : Bool) :
    TripAnswered f c (byteArrives st b stopOk s) := by
  have same : TripAnswered f c s := .inl h
  have ported (x : Port → Port) : TripAnswered f c (s.updPort st x) := same.quiet (updPort_quiet st x s)
  have heard (x : Port → Port) : TrippedBy f c (markHeard st (s.updPort st x)) :=
    h.quiet ((updPort_quiet st x s).before rfl (markHeard_quiet st _))
  unfold Machine.byteArrives receiveByte completeFrame placeFrame
  dsimp only
  repeat' split
  any_goals exact ported _
  · exact same
  · exact (heard _).takeFrame st _
  · exact .inl ((heard _).quiet (updPort_quiet _ _ _))

theorem TrippedBy.replyEnds (h : TrippedBy f c s) (st : Station) : TripAnswered f c (replyEnds st s) := by
  unfold Machine.replyEnds
  split
  · exact .inl (h.quiet (updPort_quiet _ _ _))
  · exact (h.quiet (updPort_quiet _ _ _)).takeFrame st _

/-! ### Every command -/

theorem assertReset_cleared (f : FlightId) (s : State) : TripCleared f (assertReset s) :=
  ⟨by rw [assertReset_flight]; rfl, .inr (by rw [assertReset_flight]; rfl)⟩

/-- Behind every command a TRIPPED flight is TRIPPED with the same cause, or has left TRIPPED. -/
theorem exec_tripAnswered {i : Instr} (h : TrippedBy f c s) (run : exec i s = .next t) : TripAnswered f c t := by
  have same : TripAnswered f c s := .inl h
  cases e : encodeRequest i with
  | some frame =>
    obtain ⟨st, kind, body⟩ := frame
    rw [exec_request s e] at run
    unfold onRequest at run
    cases run
    split
    · exact same
    · exact ((h.quiet (markHeard_quiet st s)).request i).quiet (startReply_quiet _ _ _ _)
  | none =>
    cases i <;> first | (cases e; done) | skip
    case readLines st filters => cases filters <;> cases e
    case resetnAssert => cases run; exact .inr (assertReset_cleared f s)
    case resetEnd => cases run; split; exacts [.inl h.releaseReset, same]
    case unknownKind st kind =>
      change execUnknownKind st kind s = _ at run
      unfold execUnknownKind onRequest at run
      split at run <;> cases run
      · exact same
      · split
        · exact same
        · exact same.quiet ((markHeard_quiet st s).before rfl (startReply_quiet _ _ _ _))
    case byteReceived => cases run; split; exacts [same, h.byteArrives _ _ _]
    case gap => cases run; split; exacts [same, same.quiet (updPort_quiet _ _ _)]
    case replySent => cases run; split; exacts [same, h.replyEnds _]
    case stepExpiry => cases run; split; exacts [.inl h.stepAll, same]
    case dwellExpiry g =>
      cases run
      repeat' split
      · exact .inl (h.elsewhere (endDwell_work g s) (by simp [*]))
      all_goals exact same
    case brakeTimeout g =>
      cases run
      repeat' split
      · exact .inl (h.trip g _)
      all_goals exact same
    case silence st =>
      cases run
      split
      · exact .inl ((h.quiet (countSilence_quiet _ _)).restrainClaimed _ _)
      · exact same
    case sndrPhaseExpiry => exact same.quiet (execSndrPhaseExpiry_quiet run)
    case exchangeStart =>
      cases run
      repeat' split
      all_goals exact same.of_flights rfl
    case heldLine =>
      cases run
      repeat' split
      · exact same
      · exact .inl ((h.miss _ _).quiet (passTurn_quiet _ _))
      · exact same
    case writeComplete =>
      cases run
      repeat' split
      · exact .inl (h.writeEnds _)
      all_goals exact same
    case readComplete =>
      cases run
      repeat' split
      · exact .inl (h.readArrives _ _ _ _)
      all_goals exact same
    case answerHoldTimeout =>
      cases run
      repeat' split
      · exact .inl (h.missExchange _)
      all_goals exact same
    case missedExchange =>
      cases run
      repeat' split
      · exact same
      · exact .inl (h.missExchange _)
      · exact same
    case rawLevelChange => cases run; exact .inl (h.rawChange _ _)
    case filterAccept =>
      cases run
      repeat' split
      · exact .inl (h.acceptChange _ _)
      all_goals exact same
    case lineSettle => cases run; split; exacts [.inl (settleLine_trippedBy _ _ h), same]
    case conversionComplete =>
      cases run
      repeat' split
      · exact same
      · exact .inl ((h.newResult _ _ _).quiet (nextConversion_quiet _ _))
      all_goals exact same

end

/-- Settles O15: the cause is that of a TRIPPED flight, and a command that does not clear the trip keeps it. -/
theorem tripCauseStands : Obligations.TripCauseStands := by
  intro s t f c shaped h recorded
  have tripped : TrippedBy f c s := ⟨(shaped f).tripCause.mp (by simp [recorded]), recorded⟩
  unfold step at h
  split at h
  · cases h; exact .inl recorded
  · rename_i i rest _
    exact (exec_tripAnswered (tripped.of_flights (t := { s with pending := rest }) rfl) h).imp
      TrippedBy.cause fun cleared => ⟨cleared.cause, cleared.state⟩

end Sys2Proof.Machine
end

section
namespace Sys2Proof.Machine

/-! ## The books of the ports, the bus controller, the scanner and the station enables (06, R113, R117; 07, R124; 08, R143; 10, R172) -/

/-! ### What leaves the books alone -/

/-- From p to q a port has changed in its flags alone. -/
def Port.FlagsOnly (p q : Port) : Prop :=
  q = { p with errors := q.errors, flightNotices := q.flightNotices, linesNotice := q.linesNotice, linkNotice := q.linkNotice
               change := q.change, fresh := q.fresh }

/-- From s to t nothing has changed on which the soundness of the ports, the bus controller and the scanner rests; axes may have
been configured. -/
structure BooksKept (s t : State) : Prop where
  ports : ∀ u, (s.port u).FlagsOnly (t.port u)
  silents : t.silents = s.silents
  configured : ∀ n, (s.axis n).state ≠ .unconfigured → (t.axis n).state ≠ .unconfigured
  round : t.round = s.round
  pending : t.roundPending = s.roundPending
  turn : t.turn = s.turn
  exchange : t.exchange = s.exchange
  scanMode : t.scanMode = s.scanMode
  scanState : t.scanState = s.scanState
  enabled : ∀ k, (t.slot k).enabled = (s.slot k).enabled

/-- From s to t the links and the levels that their conditions look at are the same. -/
structure LinksKept (s t : State) : Prop where
  links : t.links = s.links
  levels : ∀ src cond, levelHolds t src cond = levelHolds s src cond

/-- From s to t neither the books nor the enables, nor what gives the enables, have changed. -/
structure Aside (s t : State) : Prop where
  books : BooksKept s t
  links : LinksKept s t
  enables : t.enables = s.enables

section
variable {s t u : State}

theorem Port.FlagsOnly.refl (p : Port) : p.FlagsOnly p := rfl

theorem Port.FlagsOnly.trans {p q r : Port} (h : p.FlagsOnly q) (k : q.FlagsOnly r) : p.FlagsOnly r := by
  unfold Port.FlagsOnly at *
  rw [k, h]

theorem BooksKept.refl (s : State) : BooksKept s s :=
  ⟨fun _ => .refl _, rfl, fun _ => id, rfl, rfl, rfl, rfl, rfl, rfl, fun _ => rfl⟩

theorem BooksKept.trans (h : BooksKept s t) (k : BooksKept t u) : BooksKept s u where
  ports v := (h.ports v).trans (k.ports v)
  silents := k.silents.trans h.silents
  configured n := k.configured n ∘ h.configured n
  round := k.round.trans h.round
  pending := k.pending.trans h.pending
  turn := k.turn.trans h.turn
  exchange := k.exchange.trans h.exchange
  scanMode := k.scanMode.trans h.scanMode
  scanState := k.scanState.trans h.scanState
  enabled n := (k.enabled n).trans (h.enabled n)

theorem LinksKept.refl (s : State) : LinksKept s s := ⟨rfl, fun _ _ => rfl⟩

theorem LinksKept.trans (h : LinksKept s t) (k : LinksKept t u) : LinksKept s u :=
  ⟨k.links.trans h.links, fun src cond => (k.levels src cond).trans (h.levels src cond)⟩

theorem Aside.refl (s : State) : Aside s s := ⟨.refl s, .refl s, rfl⟩

theorem Aside.trans (h : Aside s t) (k : Aside t u) : Aside s u :=
  ⟨h.books.trans k.books, h.links.trans k.links, k.enables.trans h.enables⟩

theorem Aside.foldl {α : Type} (l : List α) (step : State → α → State) (h : ∀ s a, Aside s (step s a)) (s : State) :
    Aside s (l.foldl step s) := by
  induction l generalizing s with
  | nil => exact .refl s
  | cons a l ih => exact (h s a).trans (ih _)

/-! ### The updates of the records -/

/-- A change of axes and of port flags, of flights, outputs and counters. -/
theorem Aside.of_tables (ports : ∀ u, (s.port u).FlagsOnly (t.port u))
    (configured : ∀ n, (s.axis n).state ≠ .unconfigured → (t.axis n).state ≠ .unconfigured)
    (rest : t = { s with flights := t.flights, axes := t.axes, ports := t.ports, brakes := t.brakes, sounder := t.sounder
                         faultLine := t.faultLine, stepCounter := t.stepCounter, timerRunning := t.timerRunning
                         resetAsserted := t.resetAsserted, freeIndex := t.freeIndex, pending := t.pending }) : Aside s t := by
  refine ⟨⟨ports, ?_, configured, ?_, ?_, ?_, ?_, ?_, ?_, fun k => ?_⟩, ⟨?_, fun src cond => ?_⟩, ?_⟩ <;> rw [rest] <;> rfl

theorem updFlight_aside (f : FlightId) (g : Flight → Flight) (s : State) : Aside s (s.updFlight f g) :=
  .of_tables (fun _ => .refl _) (fun _ => id) rfl

theorem mapPorts_aside (g : Port → Port) (flags : ∀ p : Port, p.FlagsOnly (g p)) (s : State) : Aside s (s.mapPorts g) :=
  .of_tables (fun u => by rw [State.mapPorts_port]; exact flags _) (fun _ => id) rfl

theorem updPort_aside (st : Station) (g : Port → Port) (flags : ∀ p : Port, p.FlagsOnly (g p)) (s : State) :
    Aside s (s.updPort st g) := by
  refine .of_tables (fun u => ?_) (fun _ => id) rfl
  rw [State.updPort_port]
  split
  · exact flags _
  · exact .refl _

theorem driveOutputs_aside (s : State) : Aside s (driveOutputs s) := .of_tables (fun _ => .refl _) (fun _ => id) rfl

theorem freeIndex_aside (k : Nat) (s : State) : Aside s { s with freeIndex := k } :=
  .of_tables (fun _ => .refl _) (fun _ => id) rfl

theorem takeInAnyOrder_aside {α : Type} (l : List α) (act : α → State → State) (h : ∀ a s, Aside s (act a s)) (s : State) :
    Aside s (takeInAnyOrder l act s) :=
  takeInAnyOrder_keeps (Aside s) l act s (fun t k ht => ht.trans (freeIndex_aside k t))
    (fun a _ t ht => ht.trans (h a t)) (.refl s)

theorem raiseFlight_aside (f : FlightId) (g : FlightNotices → FlightNotices) (s : State) : Aside s (raiseFlight f g s) :=
  mapPorts_aside _ (fun _ => by rfl) s

theorem mapAxes_aside {g : AxisId → Axis → Axis}
    (configured : ∀ n, (s.axis n).state ≠ .unconfigured → (g n (s.axis n)).state ≠ .unconfigured) : Aside s (s.mapAxes g) :=
  .of_tables (fun _ => .refl _) (fun n => by rw [State.mapAxes_axis]; exact configured n) rfl

theorem updAxis_aside {n : AxisId} {g : Axis → Axis}
    (configured : (s.axis n).state ≠ .unconfigured → (g (s.axis n)).state ≠ .unconfigured) : Aside s (s.updAxis n g) := by
  refine .of_tables (fun _ => .refl _) (fun m => ?_) rfl
  rw [State.updAxis_axis]
  split
  · rename_i e; subst e; exact configured
  · exact id

theorem putAxis_aside {n : AxisId} {g : Axis → Axis}
    (configured : (s.axis n).state ≠ .unconfigured → (g (s.axis n)).state ≠ .unconfigured) : Aside s (putAxis n g s) :=
  (updAxis_aside configured).trans (driveOutputs_aside _)

theorem putFlightState_aside (f : FlightId) (x : FlightState) (s : State) : Aside s (putFlightState f x s) :=
  ((updFlight_aside f _ s).trans (raiseFlight_aside f _ _)).trans (driveOutputs_aside _)

/-- A flight's record and then its state changed. -/
theorem putRecord_aside (f : FlightId) (x : FlightState) (g : Flight → Flight) (s : State) :
    Aside s (putFlightState f x (s.updFlight f g)) := (updFlight_aside f g s).trans (putFlightState_aside f x _)

theorem brakeMembers_aside (f : FlightId) (s : State) : Aside s (brakeMembers f s) := by
  refine mapAxes_aside fun n => ?_
  split
  · exact fun _ h => by cases h
  · exact id

/-! ### Holds, trips, starts and the path work -/

theorem tripFlight_aside (f : FlightId) (cause : TripCause) (s : State) : Aside s (tripFlight f cause s) := by
  unfold tripFlight
  split
  case h_1 => exact .refl s
  case h_2 => exact updFlight_aside _ _ _
  all_goals exact (brakeMembers_aside f s).trans (putRecord_aside _ _ _ _)

theorem holdFlight_aside (f : FlightId) (cause : HoldCause) (s : State) : Aside s (holdFlight f cause s) := by
  unfold holdFlight
  split
  case h_6 | h_7 => exact putRecord_aside _ _ _ _
  case h_8 | h_9 => exact updFlight_aside _ _ _
  all_goals exact .refl s

theorem restrainFlight_aside (f : FlightId) (cause : HoldCause) (s : State) : Aside s (restrainFlight f cause s) := by
  unfold restrainFlight
  split
  case h_1 state =>
    simp only [abortArming, state]
    exact (brakeMembers_aside f s).trans (putRecord_aside _ _ _ _)
  all_goals exact holdFlight_aside _ _ _

theorem restrainClaimed_aside (st : Station) (cause : HoldCause) (s : State) : Aside s (restrainClaimed st cause s) :=
  Aside.foldl _ _ (fun t f => by split; exacts [restrainFlight_aside f cause t, .refl t]) s

theorem rejectStart_aside (f : FlightId) (s : State) : Aside s (rejectStart f s) := by
  unfold rejectStart
  split
  · exact raiseFlight_aside _ _ _
  · exact (raiseFlight_aside _ _ _).trans (putFlightState_aside _ _ _)

theorem activate_aside (f : FlightId) (seg : Segment) (byCue : Bool) (s : State) : Aside s (activate f seg byCue s) := by
  unfold activate
  dsimp only
  split
  · exact ((updFlight_aside _ _ _).trans (raiseFlight_aside _ _ _)).trans (putFlightState_aside _ _ _)
  · exact putRecord_aside _ _ _ _

theorem startHead_aside (byCue : Bool) (f : FlightId) (s : State) : Aside s (startHead byCue f s).1 := by
  unfold startHead
  split
  · exact .refl s
  · dsimp only
    repeat' split
    · exact (updFlight_aside _ _ _).trans (rejectStart_aside _ _)
    · exact (updFlight_aside _ _ _).trans (rejectStart_aside _ _)
    · exact (updFlight_aside _ _ _).trans (activate_aside _ _ _ _)

theorem followDecision_aside (f : FlightId) (s : State) : Aside s (followDecision f s) := by
  unfold followDecision
  repeat' split
  · exact putFlightState_aside _ _ _
  · exact startHead_aside _ _ _
  · exact putFlightState_aside _ _ _

theorem endDwell_aside (f : FlightId) (s : State) : Aside s (endDwell f s) :=
  (updFlight_aside _ _ _).trans (followDecision_aside _ _)

theorem closeSegment_aside (f : FlightId) (act : Active) (s : State) : Aside s (closeSegment f act s) := by
  have copied (u : State) : Aside u (recycleCopy f act.seg u) := by
    unfold recycleCopy
    repeat' split
    · exact updFlight_aside _ _ _
    · exact raiseFlight_aside _ _ _
    · exact .refl u
  exact ((raiseFlight_aside _ _ _).trans (copied _)).trans (updFlight_aside _ _ _)

theorem completeMoving_aside (f : FlightId) (act : Active) (s : State) : Aside s (completeMoving f act s) := by
  unfold completeMoving
  dsimp only
  split
  · exact (closeSegment_aside _ _ _).trans (followDecision_aside _ _)
  · exact (closeSegment_aside _ _ _).trans (putRecord_aside _ _ _ _)

theorem completeStopping_aside (f : FlightId) (act : Active) (s : State) : Aside s (completeStopping f act s) := by
  unfold completeStopping
  dsimp only
  split
  · exact (closeSegment_aside _ _ _).trans (putFlightState_aside _ _ _)
  · exact (closeSegment_aside _ _ _).trans (putRecord_aside _ _ _ _)

theorem writeSetPoints_aside (f : FlightId) (act : Active) (s : State) : Aside s (writeSetPoints f act s) := by
  unfold writeSetPoints
  split
  · exact .refl s
  · refine mapAxes_aside fun n h => ?_
    repeat' split
    all_goals exact h

theorem advance_aside (f : FlightId) (act : Active) (s : State) : Aside s (advance f act s) :=
  (updFlight_aside _ _ _).trans (writeSetPoints_aside _ _ _)

theorem pathStep_aside (f : FlightId) (s : State) : Aside s (pathStep f s) := by
  unfold pathStep movingStep stoppingStep dwellStep armingStep
  dsimp only
  split
  case h_1 =>
    repeat' split
    · exact completeMoving_aside _ _ _
    · exact (advance_aside _ _ _).trans (completeMoving_aside _ _ _)
    · exact advance_aside _ _ _
    · exact .refl s
  case h_2 =>
    repeat' split
    · exact (advance_aside _ _ _).trans (completeStopping_aside _ _ _)
    · exact (advance_aside _ _ _).trans (putFlightState_aside _ _ _)
    · exact advance_aside _ _ _
    · exact .refl s
  case h_3 =>
    repeat' split
    · exact endDwell_aside _ _
    · exact updFlight_aside _ _ _
    · exact .refl s
  case h_4 =>
    repeat' split
    · exact (updFlight_aside _ _ _).trans (tripFlight_aside _ _ _)
    · exact updFlight_aside _ _ _
    · exact updFlight_aside _ _ _
    · exact .refl s
  all_goals exact .refl s

theorem flightExpiry_aside (late : Station → Bool) (f : FlightId) (s : State) : Aside s (flightExpiry late f s) := by
  unfold flightExpiry
  split
  · exact takeInAnyOrder_aside _ _ (fun path t => by split; exacts [pathStep_aside f t, restrainFlight_aside f _ t]) s
  · exact pathStep_aside f s

theorem cueFlight_aside (f : FlightId) (s : State) : Aside s (cueFlight f s) := by
  unfold cueFlight
  dsimp only
  repeat' split
  · exact startHead_aside _ _ _
  all_goals exact .refl s

/-! ### Axis faults and the checks of a read -/

theorem faultAxis_aside (n : AxisId) (cause : FaultCause) (s : State) : Aside s (faultAxis n cause s) := by
  have faulted : Aside s (putAxis n (fun a => { a with state := .faulted, faultCause := some cause }) s) :=
    putAxis_aside fun _ h => by cases h
  rcases faultAxis_cases n cause s with ⟨-, e⟩ | ⟨-, ⟨-, e⟩ | ⟨f, -, e⟩⟩ <;> rw [e]
  · exact .refl s
  · exact faulted
  · exact faulted.trans (tripFlight_aside _ _ _)

theorem countMiss_aside (n : AxisId) (kind : ExchangeKind) (s : State) : Aside s (countMiss n kind s) := by
  have counted : Aside s (s.updAxis n fun a =>
      { a with missedStreak := missedAfter (s.axis n), writeStreak := writesAfter (s.axis n) kind }) := updAxis_aside id
  unfold countMiss
  dsimp only
  split
  · exact counted.trans (faultAxis_aside _ _ _)
  · exact counted

theorem faultAtRead_aside (x : Turn) (cause : FaultCause) (s : State) : Aside s (faultAtRead x cause s) := by
  refine Aside.trans ?_ (faultAxis_aside _ _ _)
  rcases meetTrip_spec x cause s with h | h | ⟨f, other, -, -, -, h⟩ <;> rw [h]
  · exact .refl s
  · exact freeIndex_aside _ _
  · exact (freeIndex_aside _ _).trans (tripFlight_aside _ _ _)

theorem judge_aside {x : Turn} {verdict : Option FaultCause} {passed : State → State} (h : Aside s (passed s)) :
    Aside s (judge x verdict s passed) := by
  unfold judge
  split
  · exact faultAtRead_aside _ _ _
  · exact h

theorem confirmArming_aside (n : AxisId) (s : State) : Aside s (confirmArming n s) := by
  unfold confirmArming
  repeat' split
  · exact .refl s
  · exact putRecord_aside _ _ _ _
  · exact .refl s

theorem supervise_aside (x : Turn) (pos : Int) (status : Byte) (s : State) : Aside s (supervise x pos status s) := by
  have following : Aside s (putAxis x.axis (fun a => { a with state := .following }) s) := putAxis_aside fun _ h => by cases h
  unfold supervise
  dsimp only
  split
  case h_1 | h_2 => exact .refl s
  case h_3 =>
    repeat' split
    · exact faultAtRead_aside _ _ _
    · exact faultAtRead_aside _ _ _
    · exact updAxis_aside id
    · exact .refl s
  case h_4 =>
    repeat' split
    · exact faultAtRead_aside _ _ _
    · exact following.trans (judge_aside (confirmArming_aside _ _))
    · exact judge_aside (.refl s)
  case h_5 =>
    repeat' split
    · exact faultAtRead_aside _ _ _
    · exact judge_aside (.refl s)
    · exact faultAtRead_aside _ _ _

/-! ### Membership, arming and recovery -/

theorem bindMembers_aside (f : FlightId) (ns : List AxisId) (s : State) : Aside s (bindMembers f ns s) := by
  have bound := (mapAxes_aside (s := s) (g := fun n a => if n ∈ ns then { a with flight := some f } else
    if n ∈ (s.flight f).members then { a with flight := none } else a) fun n h => by repeat' split
                                                                                     all_goals exact h).trans
      (updFlight_aside f (fun r => { r with members := ns, queue := [], queueLow := false }) _)
  unfold bindMembers
  dsimp only
  split
  · exact (bound.trans (brakeMembers_aside _ _)).trans (putFlightState_aside _ _ _)
  · exact bound

theorem unbindMembers_aside (f : FlightId) (s : State) : Aside s (unbindMembers f s) :=
  (mapAxes_aside fun n h => by split <;> exact h).trans (putRecord_aside _ _ _ _)

theorem armFlight_aside (f : FlightId) (s : State) : Aside s (armFlight f s) :=
  (mapAxes_aside fun n h => by
    split
    · exact fun e => by cases e
    · exact h).trans (putRecord_aside _ _ _ _)

theorem parkFlight_aside (f : FlightId) (s : State) : Aside s (parkFlight f s) :=
  (brakeMembers_aside f s).trans (putRecord_aside _ _ _ _)

theorem resumeFlight_aside (f : FlightId) (s : State) : Aside s (resumeFlight f s) := by
  unfold resumeFlight
  split
  · exact putRecord_aside _ _ _ _
  all_goals exact putFlightState_aside _ _ _

theorem resetTripped_aside (f : FlightId) (s : State) : Aside s (resetTripped f s) :=
  ((mapAxes_aside fun n h => by
    split
    · exact fun e => by cases e
    · exact h).trans (brakeMembers_aside f _)).trans (putRecord_aside _ _ _ _)

end

end Sys2Proof.Machine
end

section
namespace Sys2Proof.Machine

/-! ## What a command does to the books -/

/-- From s to t each of the four books stays sound. -/
structure Upkeep (s t : State) : Prop where
  ports : PortsSound s → PortsSound t
  bus : BusSound s → BusSound t
  scanner : ScannerSound s → ScannerSound t
  enables : EnablesFollow s → EnablesFollow t

section
variable {s t u : State}

theorem Upkeep.refl (s : State) : Upkeep s s := ⟨id, id, id, id⟩

theorem Upkeep.trans (h : Upkeep s t) (k : Upkeep t u) : Upkeep s u :=
  ⟨k.ports ∘ h.ports, k.bus ∘ h.bus, k.scanner ∘ h.scanner, k.enables ∘ h.enables⟩

theorem Upkeep.foldl {α : Type} (l : List α) (step : State → α → State) (h : ∀ s a, Upkeep s (step s a)) (s : State) :
    Upkeep s (l.foldl step s) := by
  induction l generalizing s with
  | nil => exact .refl s
  | cons a l ih => exact (h s a).trans (ih _)

/-! ### Books and enables -/

theorem PortSound.of_flags {p q : Port} {silent : Bool} (h : PortSound p silent) (flags : p.FlagsOnly q) : PortSound q silent := by
  unfold Port.FlagsOnly at flags
  rw [flags]
  exact ⟨h.silence, h.silent, h.buffer, h.content, h.check, h.length⟩

theorem BooksKept.portsSound (h : BooksKept s t) (sound : PortsSound s) : PortsSound t := fun st => by
  rw [h.silents]
  exact (sound st).of_flags (h.ports st)

theorem BooksKept.busSound (h : BooksKept s t) (sound : BusSound s) : BusSound t where
  running := by rw [h.round, h.turn]; exact sound.running
  pending := by rw [h.round, h.pending]; exact sound.pending
  turn x due := h.configured _ (sound.turn x (h.turn ▸ due))
  exchange x running := by rw [h.turn]; exact sound.exchange x (h.exchange ▸ running)

theorem BooksKept.scannerSound (h : BooksKept s t) (sound : ScannerSound s) : ScannerSound t where
  stopped := by rw [h.scanState, h.scanMode]; exact sound.stopped
  waiting := by rw [h.scanState, h.scanMode]; exact sound.waiting
  scanning k converting := by rw [h.enabled]; exact sound.scanning k (h.scanState ▸ converting)

theorem enablesFollow_iff (s : State) : EnablesFollow s ↔ ∀ v, s.enables.get v = enableOf s v :=
  forall_congr' fun v => by rw [← enableOf_iff, Bool.coe_iff_coe]

theorem LinksKept.enableOf (h : LinksKept s t) (v : Station) : enableOf t v = enableOf s v := by
  simp only [Machine.enableOf, State.anyLink, State.link, Link.holds, h.links, h.levels]

theorem Aside.enablesFollow (h : Aside s t) (sound : EnablesFollow s) : EnablesFollow t := by
  rw [enablesFollow_iff] at sound ⊢
  intro v
  rw [h.enables, h.links.enableOf, sound]

theorem Aside.upkeep (h : Aside s t) : Upkeep s t :=
  ⟨h.books.portsSound, h.books.busSound, h.books.scannerSound, h.enablesFollow⟩

/-! ### Effects of an event (06, R113 to R116; 09, R165, R168) -/

theorem setEnable_books (st : Station) (b : Bool) (s : State) : BooksKept s (s.setEnable st b) :=
  ⟨fun _ => .refl _, rfl, fun _ => id, rfl, rfl, rfl, rfl, rfl, rfl, fun _ => rfl⟩

theorem recomputeEnable_books (st : Station) (s : State) :
    BooksKept s (recomputeEnable st s) ∧ LinksKept s (recomputeEnable st s) := by
  have stored : LinksKept s (s.setEnable st (enableOf s st)) := ⟨rfl, fun _ _ => rfl⟩
  unfold recomputeEnable
  dsimp only
  split
  · have restrained := restrainClaimed_aside st .enableLost (s.setEnable st (enableOf s st))
    exact ⟨(setEnable_books st _ s).trans restrained.books, stored.trans restrained.links⟩
  · exact ⟨setEnable_books st _ s, stored⟩

theorem recomputeEnable_get (st v : Station) (s : State) :
    (recomputeEnable st s).enables.get v = if v = st then enableOf s st else s.enables.get v := by
  have computed := recomputeEnable_spec st s
  split
  · rename_i e
    rw [e, Bool.eq_iff_iff, computed.value, enableOf_iff]
  · rename_i ne
    exact computed.others v ne

/-- What effects taken one after the other leave: the books and the links, and the enables that they compute again. -/
structure EffectsTaken (l : List Effect) (s t : State) : Prop where
  books : BooksKept s t
  links : LinksKept s t
  enables : ∀ v, t.enables.get v = if .recompute v ∈ l then enableOf s v else s.enables.get v

theorem takeEffect_taken (e : Effect) (s : State) : EffectsTaken [e] s (takeEffect e s) := by
  have aside {t : State} (h : Aside s t) (none : ∀ v, e ≠ .recompute v) : EffectsTaken [e] s t :=
    ⟨h.books, h.links, fun v => by rw [h.enables, if_neg]; simpa using (none v).symm⟩
  cases e with
  | hold f cause => exact aside (holdFlight_aside f cause s) (by simp)
  | trip f cause => exact aside (tripFlight_aside f cause s) (by simp)
  | cue f => exact aside (cueFlight_aside f s) (by simp)
  | recompute st =>
    refine ⟨(recomputeEnable_books st s).1, (recomputeEnable_books st s).2, fun v => ?_⟩
    show (recomputeEnable st s).enables.get v = _
    rw [recomputeEnable_get]
    by_cases e : v = st <;> simp [e]

theorem takeEffects_taken (l : List Effect) (s : State) : EffectsTaken l s (l.foldl (fun t e => takeEffect e t) s) := by
  induction l generalizing s with
  | nil => exact ⟨.refl s, .refl s, fun v => by simp⟩
  | cons e l ih =>
    obtain ⟨books, links, enables⟩ := takeEffect_taken e s
    obtain ⟨books', links', enables'⟩ := ih (takeEffect e s)
    refine ⟨books.trans books', links.trans links', fun v => ?_⟩
    rw [List.foldl_cons, enables', links.enableOf, enables]
    by_cases later : Effect.recompute v ∈ l <;> simp [later]

theorem takeInAnyOrder_taken (l : List Effect) (s : State) : EffectsTaken l s (takeInAnyOrder l takeEffect s) := by
  obtain ⟨books, links, enables⟩ :=
    takeEffects_taken (anyOrder l.length l s.freeIndex) { s with freeIndex := s.freeIndex + (l.length - 1) }
  have counted := freeIndex_aside (s.freeIndex + (l.length - 1)) s
  refine ⟨counted.books.trans books, counted.links.trans links, fun v => ?_⟩
  rw [takeInAnyOrder, enables, counted.links.enableOf]
  simp only [(anyOrder_perm _ _ _).mem_iff]

/-- Effects behind a change of links or levels keep the books, where they compute again every enable that the change touches. -/
theorem EffectsTaken.upkeep {l : List Effect} (h : EffectsTaken l t u) (books : BooksKept s t) (enables : t.enables = s.enables)
    (named : ∀ v, .recompute v ∉ l → enableOf t v = enableOf s v) : Upkeep s u := by
  have kept := books.trans h.books
  refine ⟨kept.portsSound, kept.busSound, kept.scannerSound, fun sound => ?_⟩
  rw [enablesFollow_iff] at sound ⊢
  intro v
  rw [h.enables, h.links.enableOf]
  split
  · rfl
  · rename_i unnamed
    rw [enables, sound, named v unnamed]

/-! ### Levels that change -/

/-- A station's enable rests on the levels of the sources that its links name. -/
theorem enableOf_congr {v : Station} (links : t.links = s.links)
    (levels : ∀ i l, s.link i = some l → l.action = .enableStation v → ∀ cond, levelHolds t l.source cond = levelHolds s l.source cond) :
    enableOf t v = enableOf s v := by
  have same (i : LinkId) : t.link i = s.link i := by unfold State.link; rw [links]
  have truth {i : LinkId} {l : Link} (hl : s.link i = some l) (enables : l.action = .enableStation v) :
      l.ConditionTrue t ↔ l.ConditionTrue s := by
    rw [← holds_iff, ← holds_iff, Link.holds, Link.holds, levels i l hl enables]
  rw [Bool.eq_iff_iff, enableOf_iff, enableOf_iff]
  simp only [EnableHolds, same]
  exact and_congr_right fun _ => forall_congr' fun i => forall_congr' fun l =>
    forall_congr' fun hl => forall_congr' fun enables => truth hl enables

theorem mem_enableEffects {src : Source} {v : Station} :
    .recompute v ∈ enableEffects s src ↔ ∃ i l, s.link i = some l ∧ l.source = src ∧ l.action = .enableStation v := by
  unfold enableEffects
  simp [mem_allStations, anyLink_iff]

/-- An event of a source at which its levels alone have changed keeps the books. -/
theorem sourceEvent_upkeep {src : Source} (occurs : Condition → Bool) (books : BooksKept s t) (enables : t.enables = s.enables)
    (links : t.links = s.links)
    (levels : ∀ src' cond, src' ≠ src → levelHolds t src' cond = levelHolds s src' cond) :
    Upkeep s (sourceEvent src occurs true t) := by
  refine (takeInAnyOrder_taken _ t).upkeep books enables fun v unnamed => ?_
  refine enableOf_congr links fun i l hl enables cond => levels _ _ fun e => unnamed ?_
  have same : t.link i = s.link i := by unfold State.link; rw [links]
  exact List.mem_append_right _ (mem_enableEffects.mpr ⟨i, l, same.trans hl, e, enables⟩)

/-- An event of a source at which no level has changed keeps the books. -/
theorem sourceEvent_level_upkeep (src : Source) (occurs : Condition → Bool) (recomputes : Bool) (h : Aside s t) :
    Upkeep s (sourceEvent src occurs recomputes t) :=
  (takeInAnyOrder_taken _ t).upkeep h.books h.enables fun v _ => h.links.enableOf v

theorem updLine_books (n : LineId) (g : SenseLine → SenseLine) (s : State) : BooksKept s (s.updLine n g) :=
  ⟨fun _ => .refl _, rfl, fun _ => id, rfl, rfl, rfl, rfl, rfl, rfl, fun _ => rfl⟩

theorem updLine_levels {n : LineId} {g : SenseLine → SenseLine} {src : Source} (cond : Condition) (away : src ≠ .line n) :
    levelHolds (s.updLine n g) src cond = levelHolds s src cond := by
  cases src with
  | line m =>
    have same : (s.updLine n g).line m = s.line m := by
      rw [State.updLine_line, if_neg]; rintro rfl; exact away rfl
    cases cond <;> simp only [levelHolds, same]
  | slot k => cases cond <;> rfl

/-- A line whose filtered level stays gives the same levels. -/
theorem lines_aside (lines : ∀ n, (t.line n).filtered = (s.line n).filtered) (rest : t = { s with lines := t.lines }) :
    Aside s t := by
  have slots (k : SlotId) : t.slot k = s.slot k := by rw [rest]; rfl
  refine ⟨?_, ⟨by rw [rest], fun src cond => ?_⟩, by rw [rest]⟩
  · rw [rest]; exact ⟨fun _ => .refl _, rfl, fun _ => id, rfl, rfl, rfl, rfl, rfl, rfl, fun _ => rfl⟩
  · cases src <;> cases cond <;> simp only [levelHolds, lines, slots]

theorem updLine_aside {n : LineId} {g : SenseLine → SenseLine} (filtered : ∀ l, (g l).filtered = l.filtered) (s : State) :
    Aside s (s.updLine n g) := by
  refine lines_aside (fun m => ?_) rfl
  rw [State.updLine_line]
  split
  · exact filtered _
  · rfl

theorem raiseLineChange_aside (n : LineId) (s : State) : Aside s (raiseLineChange n s) := mapPorts_aside _ (fun _ => by rfl) s

theorem acceptChange_upkeep (n : LineId) (level : Level) (s : State) : Upkeep s (acceptChange n level s) :=
  sourceEvent_upkeep _ ((updLine_books n _ s).trans (raiseLineChange_aside n _).books) rfl rfl fun _ cond away =>
    ((raiseLineChange_aside n _).links.levels _ cond).trans (updLine_levels cond away)

theorem settleLine_upkeep (n : LineId) (s : State) : Upkeep s (settleLine n s) :=
  sourceEvent_upkeep _ (updLine_books n _ s) rfl rfl fun _ cond away => updLine_levels cond away

theorem takeRaw_upkeep (n : LineId) (s : State) : Upkeep s (takeRaw n s) := by
  unfold takeRaw
  repeat' split
  · exact settleLine_upkeep n s
  · exact .refl s
  · exact acceptChange_upkeep n _ s

theorem rawChange_upkeep (n : LineId) (level : Level) (s : State) : Upkeep s (rawChange n level s) := by
  have moved := (updLine_aside (n := n) (g := fun l => { l with raw := level }) (fun _ => rfl) s).upkeep
  unfold rawChange filterRaw
  dsimp only
  repeat' split
  · exact .refl s
  · exact moved
  · exact moved
  · exact moved.trans (updLine_aside (fun _ => by rfl) _).upkeep
  · exact moved.trans (takeRaw_upkeep n _)

theorem Upkeep.anyOrder {α : Type} {l : List α} {act : α → State → State} (h : ∀ a s, Upkeep s (act a s)) (s : State) :
    Upkeep s (takeInAnyOrder l act s) :=
  takeInAnyOrder_keeps (Upkeep s) l act s (fun t k ht => ht.trans (freeIndex_aside k t).upkeep)
    (fun a _ t ht => ht.trans (h a t)) (.refl s)

/-- Filters written leave every filtered level. -/
theorem mapLines_aside {g : LineId → SenseLine → SenseLine} (filtered : ∀ n l, (g n l).filtered = l.filtered) (s : State) :
    Aside s { s with lines := mapAt s.lines g } := by
  refine lines_aside (fun n => ?_) rfl
  show (mapAt s.lines g)[n].filtered = s.lines[n].filtered
  rw [getElem_mapAt, filtered]

theorem writeFilters_upkeep (w : Half) (s : State) : Upkeep s (writeFilters w s) := by
  unfold writeFilters
  dsimp only
  exact (mapLines_aside (fun _ _ => by rfl) s).upkeep.trans (Upkeep.anyOrder takeRaw_upkeep _)

theorem releaseReset_upkeep (s : State) : Upkeep s (releaseReset s) := by
  have live : Aside s { s with timerRunning := true, resetAsserted := false } := .of_tables (fun _ => .refl _) (fun _ => id) rfl
  exact live.upkeep.trans (Upkeep.anyOrder settleLine_upkeep _)

/-! ### Links written and cleared -/

theorem setLink_books (i : LinkId) (l : Option Link) (s : State) : BooksKept s (s.setLink i l) :=
  ⟨fun _ => .refl _, rfl, fun _ => id, rfl, rfl, rfl, rfl, rfl, rfl, fun _ => rfl⟩

theorem enableTarget_iff (entry : Option Link) (v : Station) :
    enableTarget entry = some v ↔ ∃ l, entry = some l ∧ l.action = .enableStation v := by
  cases entry with
  | none => simp [enableTarget]
  | some l => cases action : l.action <;> simp [enableTarget, action]

/-- A link entry counts in the enables of no station but those that it names before or behind the writing. -/
theorem enableOf_setLink {i : LinkId} {l : Option Link} {v : Station} (before : enableTarget (s.link i) ≠ some v)
    (behind : enableTarget l ≠ some v) : enableOf (s.setLink i l) v = enableOf s v := by
  have away (j : LinkId) (m : Link) (enables : m.action = .enableStation v) :
      (s.setLink i l).link j = some m ↔ s.link j = some m := by
    rw [State.setLink_link]
    split
    · rename_i e
      subst e
      exact ⟨fun h => absurd ((enableTarget_iff _ _).mpr ⟨m, h, enables⟩) behind,
        fun h => absurd ((enableTarget_iff _ _).mpr ⟨m, h, enables⟩) before⟩
    · exact .rfl
  rw [Bool.eq_iff_iff, enableOf_iff, enableOf_iff]
  refine and_congr (exists_congr fun j => exists_congr fun m => and_congr_left fun enables => away j m enables) ?_
  refine forall_congr' fun j => forall_congr' fun m => ?_
  exact ⟨fun h hm enables => h ((away j m enables).mpr hm) enables, fun h hm enables => h ((away j m enables).mp hm) enables⟩

theorem mem_stationsNamed {before after : Option Link} {v : Station} :
    v ∈ stationsNamed before after ↔ enableTarget before = some v ∨ enableTarget after = some v := by
  simp [stationsNamed, mem_allStations]

theorem writeLink_upkeep (i : LinkId) (l : Link) (s : State) : Upkeep s (writeLink i l s) := by
  refine (takeInAnyOrder_taken _ _).upkeep (setLink_books i (some l) s) rfl fun v unnamed => ?_
  have unnamed : v ∉ stationsNamed (s.link i) (some l) := fun h =>
    unnamed (List.mem_append_right _ (List.mem_map.mpr ⟨v, h, rfl⟩))
  rw [mem_stationsNamed, not_or] at unnamed
  exact enableOf_setLink unnamed.1 unnamed.2

theorem clearEntry_upkeep (i : LinkId) (s : State) : Upkeep s (clearEntry i s) := by
  have books := setLink_books i none s
  unfold clearEntry
  dsimp only
  split
  · rename_i st named
    refine (takeEffect_taken (.recompute st) _).upkeep books rfl fun v unnamed => ?_
    exact enableOf_setLink (by rw [named]; simpa using Ne.symm (by simpa using unnamed)) (by simp [enableTarget])
  · rename_i unnamed
    exact EffectsTaken.upkeep (l := []) ⟨.refl _, .refl _, fun _ => by simp⟩ books rfl
      fun v _ => enableOf_setLink (by simp [unnamed]) (by simp [enableTarget])

/-! ### Results and scans (08, R143 to R155) -/

theorem updSlot_books {k : SlotId} {r : Slot} (enabled : r.enabled = (s.slot k).enabled) : BooksKept s (s.updSlot k fun _ => r) := by
  refine ⟨fun _ => .refl _, rfl, fun _ => id, rfl, rfl, rfl, rfl, rfl, rfl, fun q => ?_⟩
  rw [State.updSlot_slot]
  split
  · rename_i e; rw [e, enabled]
  · rfl

theorem updSlot_levels {k : SlotId} {r : Slot} {src : Source} (cond : Condition)
    (same : src = .slot k → r.isOver = (s.slot k).isOver ∧ r.isUnder = (s.slot k).isUnder) :
    levelHolds (s.updSlot k fun _ => r) src cond = levelHolds s src cond := by
  cases src with
  | line m => cases cond <;> rfl
  | slot q =>
    have levels : ((s.updSlot k fun _ => r).slot q).isOver = (s.slot q).isOver ∧
        ((s.updSlot k fun _ => r).slot q).isUnder = (s.slot q).isUnder := by
      rw [State.updSlot_slot]
      split
      · rename_i e; subst e; exact same rfl
      · exact ⟨rfl, rfl⟩
    cases cond <;> simp only [levelHolds, levels]

theorem raiseFresh_aside (k : SlotId) (s : State) : Aside s (raiseFresh k s) := mapPorts_aside _ (fun _ => by rfl) s

theorem levelsChanged_iff (before after : Slot) :
    levelsChanged before after = true ↔ after.isOver ≠ before.isOver ∨ after.isUnder ≠ before.isUnder := by
  simp [levelsChanged]

theorem newResult_upkeep (k : SlotId) (raw : Nat) (origin : Origin) (s : State) : Upkeep s (newResult k raw origin s) := by
  have books : BooksKept s (s.updSlot k fun _ => (s.slot k).withResult raw origin) := updSlot_books rfl
  have fresh := raiseFresh_aside k (s.updSlot k fun _ => (s.slot k).withResult raw origin)
  unfold newResult
  dsimp only
  by_cases changed : levelsChanged (s.slot k) ((s.slot k).withResult raw origin) = true
  · rw [changed]
    exact sourceEvent_upkeep _ (books.trans fresh.books) rfl rfl fun _ cond away =>
      (fresh.links.levels _ cond).trans (updSlot_levels cond fun e => absurd e away)
  · have same := not_or.mp (changed ∘ (levelsChanged_iff _ _).mpr)
    refine sourceEvent_level_upkeep _ _ _ (Aside.trans ⟨books, ⟨rfl, fun src cond => ?_⟩, rfl⟩ fresh)
    exact updSlot_levels cond fun _ => ⟨not_not.mp same.1, not_not.mp same.2⟩

/-- A change of the scanner's mode and state alone that leaves it sound. -/
theorem Upkeep.of_scan (rest : t = { s with scanMode := t.scanMode, scanState := t.scanState })
    (scanner : ScannerSound s → ScannerSound t) : Upkeep s t := by
  refine ⟨fun h => ?_, fun h => ?_, scanner, fun h => ?_⟩ <;> rw [rest]
  · exact h
  · exact ⟨h.running, h.pending, h.turn, h.exchange⟩
  · exact h

theorem beginScan_frame (s : State) :
    beginScan s = { s with scanMode := (beginScan s).scanMode, scanState := (beginScan s).scanState } := by
  unfold beginScan
  repeat' split
  all_goals rfl

theorem endScan_frame (s : State) :
    endScan s = { s with scanMode := (endScan s).scanMode, scanState := (endScan s).scanState } := by
  unfold endScan
  split
  · exact beginScan_frame s
  all_goals rfl

theorem beginScan_sound (mode : s.scanMode ≠ .stopped) : ScannerSound (beginScan s) := by
  unfold beginScan
  repeat' split
  · rename_i enabled
    exact ⟨by simp [mode], by simp, fun k h => by cases h; exact enabled⟩
  · rename_i step
    exact ⟨by simp [step], fun _ => step, by simp⟩
  all_goals exact ⟨by simp, by simp, by simp⟩

theorem startScan_upkeep (mode : ScanMode) (s : State) : Upkeep s (startScan mode s) := by
  have began (now : ScanMode) (moves : now ≠ .stopped) : Upkeep s (beginScan { s with scanMode := now }) :=
    .of_scan (by rw [beginScan_frame]) fun _ => beginScan_sound moves
  cases mode
  case once | continuous => exact began _ (by decide)
  all_goals exact .of_scan rfl fun _ => ⟨by simp [startScan], by simp [startScan], by simp [startScan]⟩

theorem scannerStep_upkeep (s : State) : Upkeep s (scannerStep s) := by
  refine .of_scan (scannerStep_frame s) fun sound => ?_
  unfold scannerStep
  split
  · rename_i waiting
    exact beginScan_sound (by rw [sound.waiting waiting]; decide)
  all_goals exact sound

theorem nextConversion_upkeep {k : SlotId} (converting : s.scanState = .scanning k) : Upkeep s (nextConversion k s) := by
  have ended : ScannerSound s → ScannerSound (endScan s) := fun sound => by
    unfold endScan
    split
    · rename_i mode; exact beginScan_sound (by rw [mode]; decide)
    · rename_i mode; exact ⟨by simp [mode], fun _ => mode, by simp⟩
    all_goals exact ⟨by simp, by simp, by simp⟩
  unfold nextConversion
  repeat' split
  · rename_i enabled
    refine .of_scan rfl fun sound => ⟨?_, by simp, fun q h => by cases h; exact enabled⟩
    simpa [converting] using sound.stopped
  · exact .of_scan (endScan_frame s) ended
  · exact .of_scan (endScan_frame s) ended

/-! ### Ports (06, R117, R119; 10, R172 to R178) -/

/-- A change of one port and its station's silence that leaves that port sound. -/
theorem Upkeep.of_port {st : Station} (rest : t = { s with ports := t.ports, silents := t.silents })
    (others : ∀ v, v ≠ st → t.port v = s.port v ∧ t.silents.get v = s.silents.get v)
    (port : PortSound (s.port st) (s.silents.get st) → PortSound (t.port st) (t.silents.get st)) : Upkeep s t := by
  refine ⟨fun h v => ?_, fun h => ?_, fun h => ?_, fun h => ?_⟩
  · by_cases e : v = st
    · subst e; exact port (h v)
    · rw [(others v e).1, (others v e).2]; exact h v
  all_goals rw [rest]
  · exact ⟨h.running, h.pending, h.turn, h.exchange⟩
  · exact ⟨h.stopped, h.waiting, h.scanning⟩
  · exact h

theorem updPort_upkeep {st : Station} {g : Port → Port}
    (port : PortSound (s.port st) (s.silents.get st) → PortSound (g (s.port st)) (s.silents.get st)) :
    Upkeep s (s.updPort st g) :=
  .of_port (st := st) rfl (fun v ne => ⟨by rw [State.updPort_port, if_neg ne], rfl⟩)
    fun h => by rw [State.updPort_port_same]; exact port h

theorem markHeard_upkeep (st : Station) (s : State) : Upkeep s (markHeard st s) := by
  refine .of_port (st := st) rfl (fun v ne => by simp [ne]) fun h => ?_
  rw [markHeard_port, markHeard_silent, if_pos rfl, if_pos rfl]
  exact ⟨Nat.zero_le _, by simp, h.buffer, h.content, h.check, h.length⟩

theorem startReply_upkeep (st : Station) (kind : Byte) (ans : Answer) (s : State) : Upkeep s (startReply st kind ans s) :=
  updPort_upkeep fun h => ⟨h.silence, h.silent, by simp, h.content, h.check, h.length⟩

theorem discardFrame_upkeep (st : Station) (g : ErrorFlags → ErrorFlags) (s : State) : Upkeep s (discardFrame st g s) :=
  updPort_upkeep fun h => ⟨h.silence, h.silent, h.buffer, by simp, by simp, by simp⟩

theorem countSilence_upkeep (st : Station) (s : State) : Upkeep s (countSilence st s) := by
  refine .of_port (st := st) (countSilence_counted st s) (fun v ne => countSilence_other ne s) fun h => ?_
  have bound := h.silence
  have silent := h.silent
  unfold countSilence
  repeat' split
  · exact h
  · rw [State.setSilent_get, if_pos rfl]
    show PortSound ((s.updPort st fun p => { p with silence := silenceSteps }).port st) true
    rw [State.updPort_port_same]
    exact ⟨le_refl 250, by simp [silenceSteps], h.buffer, h.content, h.check, h.length⟩
  · rename_i active counts
    rw [turnsSilent_iff] at counts
    simp only [Bool.not_eq_true] at active
    have below : (s.port st).silence < 249 := by
      by_contra ge
      exact counts ⟨active, Nat.not_lt.mp ge⟩
    rw [State.updPort_port_same]
    refine ⟨by dsimp only; omega, ?_, h.buffer, h.content, h.check, h.length⟩
    show s.silents.get st = true ↔ _
    simp only [active]
    constructor <;> intro h
    · cases h
    · omega

end

end Sys2Proof.Machine
end

section
namespace Sys2Proof.Machine

/-! ## Every command keeps the books -/

section
variable {s t u : State}

/-! ### Requests -/

theorem Answers.upkeep {r : State × Answer} (h : Answers s r (Upkeep s)) : Upkeep s r.1 := by
  rcases h with ⟨_, -, rfl⟩ | ⟨kept, -⟩
  · exact .refl s
  · exact kept

theorem serveClaim_upkeep (st : Station) (flight take : Byte) (s : State) : Upkeep s (serveClaim st flight take s).1 := by
  unfold serveClaim
  repeat' split
  · exact (updFlight_aside _ _ s).upkeep
  · exact .refl s
  · exact .refl s
  · exact (updFlight_aside _ _ s).upkeep
  all_goals exact .refl s

theorem serveRelease_upkeep (st : Station) (flight : Byte) (s : State) : Upkeep s (serveRelease st flight s).1 := by
  unfold serveRelease
  repeat' split
  · exact .refl s
  · exact .refl s
  · exact (updFlight_aside _ _ s).upkeep
  · exact .refl s

theorem serveBind_upkeep (st : Station) (flight : Byte) (axes : List Byte) (s : State) :
    Upkeep s (serveBind st flight axes s).1 := by
  unfold serveBind
  repeat' split
  case isFalse.isFalse.isFalse.isFalse => exact (bindMembers_aside _ _ s).upkeep
  all_goals exact .refl s

/-- A CONFIGURE-AXIS takes no axis out of the round, and a discarded exchange keeps its turn (07, R125, R136). -/
theorem configureAxis_upkeep (n : AxisId) (p : AxisParams) (s : State) : Upkeep s (configureAxis n p s) := by
  have configured : Aside s (putAxis n (fun a => a.configured p) s) := putAxis_aside fun _ h => by
    have := (configured_state (s.axis n) p).symm.trans h
    split at this <;> simp_all
  unfold configureAxis
  dsimp only
  split
  · refine configured.upkeep.trans ⟨id, fun h => ⟨h.running, h.pending, h.turn, fun x discarded => ?_⟩,
      fun h => ⟨h.stopped, h.waiting, h.scanning⟩, id⟩
    obtain ⟨y, running, rfl⟩ := Option.map_eq_some_iff.mp discarded
    rw [show (discardFor n y).turn = y.turn by unfold discardFor; split <;> rfl]
    exact h.exchange y running
  · exact configured.upkeep

theorem serveConfigureAxis_upkeep (st : Station) (axis address : Byte) (lower upper vmax : Word) (amax : Half)
    (window : Word) (slot : Byte) (s : State) :
    Upkeep s (serveConfigureAxis st axis address lower upper vmax amax window slot s).1 := by
  unfold serveConfigureAxis
  dsimp only
  repeat' split
  case isFalse.isFalse.isFalse.isFalse => exact configureAxis_upkeep _ _ s
  all_goals exact .refl s

theorem serveSetFlightLimits_upkeep (st : Station) (flight : Byte) (decel lo hi : Half) (s : State) :
    Upkeep s (serveSetFlightLimits st flight decel lo hi s).1 := by
  unfold serveSetFlightLimits
  split
  · exact .refl s
  · exact (driving_answers fun f _ => .accept (updFlight_aside f _ s).upkeep).upkeep

theorem serveArm_upkeep (st : Station) (flight : Byte) (s : State) : Upkeep s (serveArm st flight s).1 := by
  refine (Answers.upkeep (drivingEnabled_answers fun f _ _ => ?_))
  repeat' split
  · exact .refuse (by decide)
  · exact .refuse (by decide)
  · exact .refuse (by decide)
  · exact .accept (armFlight_aside f s).upkeep

theorem serveGo_upkeep (st : Station) (flight : Byte) (s : State) : Upkeep s (serveGo st flight s).1 := by
  rcases serveGo_cases st flight s with ⟨_, -, h⟩ | ⟨f, -, h⟩ <;> rw [h]
  · exact .refl s
  · exact (startHead_aside false f s).upkeep

theorem serveResume_upkeep (st : Station) (flight : Byte) (s : State) : Upkeep s (serveResume st flight s).1 := by
  refine (Answers.upkeep (drivingEnabled_answers fun f _ _ => ?_))
  repeat' split
  · exact .refuse (by decide)
  · exact .refuse (by decide)
  · exact .accept (resumeFlight_aside f s).upkeep

theorem serveResetFlight_upkeep (st : Station) (flight : Byte) (s : State) :
    Upkeep s (serveResetFlight st flight s).1 := by
  refine (Answers.upkeep (driving_answers fun f _ => ?_))
  repeat' split
  · exact .refuse (by decide)
  · exact .refuse (by decide)
  · exact .refuse (by decide)
  · exact .accept (resetTripped_aside f s).upkeep

/-- A driving request whose owner takes it in one state of its flight, or refuses it. -/
theorem driving_upkeep {st : Station} {flight : Byte} {takes : FlightId → Prop} [DecidablePred takes] {effect : FlightId → State}
    {code : ResultCode} (h : ∀ f, Aside s (effect f)) :
    Upkeep s (driving st flight s fun f => if takes f then accept (effect f) else refuse s code).1 := by
  rcases driving_cases st flight s _ with ⟨_, -, e⟩ | ⟨f, -, e⟩ <;> rw [e]
  · exact .refl s
  · split
    · exact (h f).upkeep
    · exact .refl s

theorem serveCancel_upkeep (st : Station) (flight : Byte) (s : State) : Upkeep s (serveCancel st flight s).1 :=
  driving_upkeep fun _ => putRecord_aside _ _ _ _

theorem servePark_upkeep (st : Station) (flight : Byte) (s : State) : Upkeep s (servePark st flight s).1 :=
  driving_upkeep fun f => parkFlight_aside f s

theorem serveUnbind_upkeep (st : Station) (flight : Byte) (s : State) : Upkeep s (serveUnbind st flight s).1 :=
  driving_upkeep fun f => unbindMembers_aside f s

theorem serveFlush_upkeep (st : Station) (flight : Byte) (s : State) : Upkeep s (serveFlush st flight s).1 := by
  refine (Answers.upkeep (driving_answers fun f _ => ?_))
  split
  · exact .refuse (by decide)
  · exact .accept (updFlight_aside f _ s).upkeep

theorem serveOpenCue_upkeep (st : Station) (flight : Byte) (s : State) : Upkeep s (serveOpenCue st flight s).1 :=
  (driving_answers fun f _ => .accept (updFlight_aside f _ s).upkeep).upkeep

theorem serveCloseCue_upkeep (st : Station) (flight : Byte) (s : State) : Upkeep s (serveCloseCue st flight s).1 :=
  (driving_answers fun f _ => .accept (updFlight_aside f _ s).upkeep).upkeep

theorem serveHold_upkeep (st : Station) (flight : Byte) (s : State) : Upkeep s (serveHold st flight s).1 := by
  unfold serveHold
  split
  · exact .refl s
  · exact (holdFlight_aside _ _ s).upkeep

theorem serveHoldAll_upkeep (st : Station) (s : State) : Upkeep s (serveHoldAll st s).1 :=
  (Aside.foldl _ _ (fun t f => holdFlight_aside f _ t) s).upkeep

theorem serveStop_upkeep (st : Station) (flight : Byte) (s : State) : Upkeep s (serveStop st flight s).1 := by
  unfold serveStop
  repeat' split
  · exact (Aside.foldl _ _ (fun t f => tripFlight_aside f _ t) s).upkeep
  · exact .refl s
  · exact (tripFlight_aside _ _ s).upkeep

theorem serveAppend_upkeep (st : Station) (flight : Byte) (tag : Half) (presence : Byte) (t0 t1 t2 t3 vmax : Word)
    (aUp aDn dwell : Half) (start flags : Byte) (s : State) :
    Upkeep s (serveAppend st flight tag presence t0 t1 t2 t3 vmax aUp aDn dwell start flags s).1 := by
  unfold serveAppend
  split
  · exact .refl s
  · refine (Answers.upkeep (driving_answers fun f _ => ?_))
    repeat' split
    · exact .refuse (by decide)
    · exact .refuse (by decide)
    · exact .refuse (by decide)
    · exact .refuse (by decide)
    · exact .accept (updFlight_aside f _ s).upkeep

theorem serveSetLink_upkeep (link source condition action target : Byte) (s : State) :
    Upkeep s (serveSetLink link source condition action target s).1 := by
  unfold serveSetLink
  split
  · exact writeLink_upkeep _ _ s
  · exact .refl s

theorem serveClearLink_upkeep (link : Byte) (s : State) : Upkeep s (serveClearLink link s).1 := by
  unfold serveClearLink
  split
  · exact .refl s
  · exact clearEntry_upkeep _ s

/-- SET-SLOT keeps a slot's levels, and no slot converts while it is taken (08, R154). -/
theorem serveSetSlot_upkeep (slot input enabled : Byte) (tare high low slack : Half) (s : State) :
    Upkeep s (serveSetSlot slot input enabled tare high low slack s).1 := by
  unfold serveSetSlot
  repeat' split
  · exact .refl s
  · exact .refl s
  · rename_i k _ _ r settings stopped
    have levels : r.isOver = (s.slot k).isOver ∧ r.isUnder = (s.slot k).isUnder := by
      unfold slotSettingsOf at settings
      repeat' split at settings
      · cases settings; exact ⟨rfl, rfl⟩
      all_goals cases settings
    have kept : LinksKept s (s.updSlot k fun _ => r) := ⟨rfl, fun src cond => updSlot_levels cond fun _ => levels⟩
    refine ⟨id, fun h => ⟨h.running, h.pending, h.turn, h.exchange⟩,
      fun h => ⟨h.stopped, h.waiting, fun q converting => by cases stopped.symm.trans converting⟩, fun h => ?_⟩
    rw [enablesFollow_iff] at h ⊢
    exact fun v => (h v).trans (kept.enableOf v).symm
  · exact .refl s

theorem serveScan_upkeep (mode : Byte) (s : State) : Upkeep s (serveScan mode s).1 := by
  unfold serveScan
  split
  · exact .refl s
  · exact startScan_upkeep _ s

theorem serveInject_upkeep (slot : Byte) (raw : Half) (s : State) : Upkeep s (serveInject slot raw s).1 := by
  unfold serveInject
  repeat' split
  · exact .refl s
  · exact newResult_upkeep _ _ _ s
  · exact .refl s

theorem serveReadFlight_upkeep (flight : Byte) (s : State) : Upkeep s (serveReadFlight flight s).1 := by
  unfold serveReadFlight
  split <;> exact .refl s

theorem serveReadAxis_upkeep (axis : Byte) (s : State) : Upkeep s (serveReadAxis axis s).1 := by
  unfold serveReadAxis
  split <;> exact .refl s

theorem serveReadLines_upkeep (st : Station) (filters : Option Half) (s : State) :
    Upkeep s (serveReadLines st filters s).1 := by
  have cleared (t : State) : Upkeep t (clearChange st t) := (updPort_aside st _ (fun _ => by rfl) t).upkeep
  unfold serveReadLines
  cases filters with
  | none => exact cleared s
  | some w => exact (writeFilters_upkeep w s).trans (cleared _)

theorem serveRequest_upkeep (i : Instr) (s : State) : Upkeep s (serveRequest i s).1 := by
  cases i with
  | claim => exact serveClaim_upkeep _ _ _ s
  | release => exact serveRelease_upkeep _ _ s
  | bind => exact serveBind_upkeep _ _ _ s
  | unbind => exact serveUnbind_upkeep _ _ s
  | configureAxis => exact serveConfigureAxis_upkeep _ _ _ _ _ _ _ _ _ s
  | setFlightLimits => exact serveSetFlightLimits_upkeep _ _ _ _ _ s
  | arm => exact serveArm_upkeep _ _ s
  | go => exact serveGo_upkeep _ _ s
  | resume => exact serveResume_upkeep _ _ s
  | cancel => exact serveCancel_upkeep _ _ s
  | park => exact servePark_upkeep _ _ s
  | resetFlight => exact serveResetFlight_upkeep _ _ s
  | openCue => exact serveOpenCue_upkeep _ _ s
  | closeCue => exact serveCloseCue_upkeep _ _ s
  | hold => exact serveHold_upkeep _ _ s
  | holdAll => exact serveHoldAll_upkeep _ s
  | stop => exact serveStop_upkeep _ _ s
  | append => exact serveAppend_upkeep _ _ _ _ _ _ _ _ _ _ _ _ _ _ s
  | flush => exact serveFlush_upkeep _ _ s
  | setLink => exact serveSetLink_upkeep _ _ _ _ _ s
  | clearLink => exact serveClearLink_upkeep _ s
  | setSlot => exact serveSetSlot_upkeep _ _ _ _ _ _ _ s
  | scan => exact serveScan_upkeep _ s
  | inject => exact serveInject_upkeep _ _ s
  | status => exact (updPort_aside _ _ (fun _ => by rfl) s).upkeep
  | readFlight => exact serveReadFlight_upkeep _ s
  | readAxis => exact serveReadAxis_upkeep _ s
  | readSlots => exact (updPort_aside _ _ (fun _ => by rfl) s).upkeep
  | readLines => exact serveReadLines_upkeep _ _ s
  | _ => exact .refl s

/-! ### Bytes and replies (10, R174 to R177) -/

theorem onRequest_upkeep {st : Station} {kind : Byte} {serve : State → State × Answer} (h : ∀ s, Upkeep s (serve s).1)
    (run : onRequest st kind serve s = .next t) : Upkeep s t := by
  unfold onRequest at run
  cases run
  split
  · exact .refl s
  · exact ((markHeard_upkeep st s).trans (h _)).trans (startReply_upkeep _ _ _ _)

theorem takeFrame_upkeep (st : Station) (fr : Frame) (s : State) : Upkeep s (takeFrame st fr s) := by
  unfold takeFrame
  split
  · exact startReply_upkeep _ _ _ s
  · exact startReply_upkeep _ _ _ s
  · exact (serveRequest_upkeep _ s).trans (startReply_upkeep _ _ _ _)

theorem placeFrame_upkeep (st : Station) (fr : Frame) (s : State) : Upkeep s (placeFrame st fr s) := by
  have heard : Upkeep s (markHeard st (s.updPort st fun p => { p with stage := .hunting, assembly := .empty })) :=
    (updPort_upkeep fun h => ⟨h.silence, h.silent, h.buffer, by simp, by simp, by simp⟩).trans (markHeard_upkeep _ _)
  unfold placeFrame
  dsimp only
  repeat' split
  · exact discardFrame_upkeep _ _ _
  · exact heard.trans (takeFrame_upkeep _ _ _)
  · rename_i sending
    refine heard.trans (updPort_upkeep fun h => ⟨h.silence, h.silent, fun idle => ?_, h.content, h.check, h.length⟩)
    simp [sending] at idle

theorem completeFrame_upkeep (st : Station) (asm : Assembly) (s : State) : Upkeep s (completeFrame st asm s) := by
  unfold completeFrame
  split
  · exact placeFrame_upkeep _ _ _
  · exact discardFrame_upkeep _ _ _

theorem receiveByte_upkeep (st : Station) (b : Byte) (s : State) : Upkeep s (receiveByte st b s) := by
  unfold receiveByte
  dsimp only
  split
  case h_1 =>
    split
    · exact updPort_upkeep fun h => ⟨h.silence, h.silent, h.buffer, by simp, by simp, fun _ => rfl⟩
    · exact .refl s
  case h_2 stage =>
    split
    · rename_i range
      refine updPort_upkeep fun h => ⟨h.silence, h.silent, h.buffer, fun _ => ⟨b, rfl, range.1, range.2, ?_⟩, by simp, by simp⟩
      rw [h.length stage]
      exact ⟨range.1, rfl⟩
    · exact discardFrame_upkeep _ _ _
  case h_3 stage =>
    refine updPort_upkeep fun h => ?_
    obtain ⟨len, hlen, one, most, short, crc⟩ := h.content stage
    refine ⟨h.silence, h.silent, h.buffer, fun going => ⟨len, hlen, one, most, ?_, crc⟩, fun full => ⟨len, hlen, one, most, ?_, ?_⟩,
      fun wrong => ?_⟩
    all_goals simp only [hlen, Option.getD_some, List.length_append, List.length_singleton] at *
    · split at going
      · cases going
      · omega
    · split at full
      · omega
      · cases full
    · rw [crc]; exact Nat.zero_le 1
    · split at wrong <;> cases wrong
  case h_4 stage =>
    split
    · rename_i short
      refine updPort_upkeep fun h => ?_
      obtain ⟨len, hlen, one, most, full, -⟩ := h.check stage
      refine ⟨h.silence, h.silent, h.buffer, fun wrong => ?_, fun _ => ⟨len, hlen, one, most, full, Nat.lt_succ_iff.mp short⟩,
        fun wrong => ?_⟩ <;> cases stage.symm.trans wrong
    · exact completeFrame_upkeep _ _ _

theorem replyEnds_upkeep (st : Station) (s : State) : Upkeep s (replyEnds st s) := by
  unfold replyEnds
  split
  · rename_i empty
    exact updPort_upkeep fun h => ⟨h.silence, h.silent, fun _ => empty, h.content, h.check, h.length⟩
  · refine Upkeep.trans (updPort_upkeep fun h => ?_) (takeFrame_upkeep _ _ _)
    exact ⟨h.silence, h.silent, fun _ => rfl, h.content, h.check, h.length⟩

/-! ### The axis bus (07, R124, R131, R132, R136, R138) -/

theorem configuredFrom_configured {k : Nat} {m : AxisId} (h : configuredFrom s k = some m) : (s.axis m).state ≠ .unconfigured := by
  have found := List.find?_some h
  simp only [Bool.and_eq_true, decide_eq_true_eq] at found
  exact found.2

/-- A round that begins with no exchange in progress and no round pending is sound. -/
theorem beginRound_sound (idle : s.exchange = none) (pending : s.roundPending = false) : BusSound (beginRound s) := by
  unfold beginRound
  split
  · rename_i m found
    exact ⟨by simp, by simp, fun x h => by cases h; exact configuredFrom_configured found, by simp [idle]⟩
  · exact ⟨by simp, by simp [pending], by simp, by simp [idle]⟩

theorem passTurn_sound {x : Turn} (sound : BusSound s) (due : s.turn = some x) : BusSound (passTurn x s) := by
  have running : s.round = .running := sound.running.mpr (by simp [due])
  unfold passTurn
  split
  · exact ⟨by simp [running], fun _ => running, fun y h => by cases h; exact sound.turn x due, by simp⟩
  · split
    · rename_i m found
      exact ⟨by simp [running], fun _ => running, fun y h => by cases h; exact configuredFrom_configured found, by simp⟩
    · unfold endRound
      split
      · exact beginRound_sound rfl rfl
      · rename_i unpending
        exact ⟨by simp, fun h => absurd h unpending, by simp, by simp⟩

/-- A change of the bus controller's own records that leaves them sound. -/
theorem Upkeep.of_bus (rest : t = { s with round := t.round, roundPending := t.roundPending, turn := t.turn, exchange := t.exchange })
    (bus : BusSound s → BusSound t) : Upkeep s t := by
  refine ⟨fun h => ?_, bus, fun h => ?_, fun h => ?_⟩ <;> rw [rest]
  · exact h
  · exact ⟨h.stopped, h.waiting, h.scanning⟩
  · exact h

/-- An exchange that ends passes its turn on, whatever else it did aside from the bus controller's records. -/
theorem passTurn_upkeep {x : Turn} (h : Aside s t) (due : BusSound s → s.turn = some x) : Upkeep s (passTurn x t) := by
  have passed : passTurn x t = { t with round := (passTurn x t).round, roundPending := (passTurn x t).roundPending
                                        turn := (passTurn x t).turn, exchange := (passTurn x t).exchange } := by
    rw [passTurn_frame]
  refine ⟨fun sound => ?_, fun sound => passTurn_sound (h.books.busSound sound) (h.books.turn.trans (due sound)),
    fun sound => ?_, fun sound => ?_⟩ <;> rw [passed]
  · exact h.books.portsSound sound
  · obtain ⟨a, b, c⟩ := h.books.scannerSound sound
    exact ⟨a, b, c⟩
  · exact h.enablesFollow sound

theorem roundStep_upkeep (s : State) : Upkeep s (roundStep s) := by
  refine .of_bus (by rw [roundStep_frame]) fun sound => ?_
  unfold roundStep
  split <;> rename_i now
  · have free : s.turn = none := by
      by_contra due
      cases (sound.running.mpr due).symm.trans now
    refine beginRound_sound ?_ ?_
    · by_contra running
      obtain ⟨x, hx⟩ := Option.ne_none_iff_exists'.mp running
      cases (sound.exchange x hx).symm.trans free
    · by_contra pending
      cases (sound.pending (by simpa using pending)).symm.trans now
  · exact ⟨sound.running, fun _ => now, sound.turn, sound.exchange⟩

theorem missExchange_upkeep {x : Exchange} (running : s.exchange = some x) : Upkeep s (missExchange x s) := by
  refine passTurn_upkeep ?_ fun sound => sound.exchange x running
  split
  · exact .refl s
  · exact countMiss_aside _ _ s

theorem writeEnds_upkeep {x : Exchange} (running : s.exchange = some x) : Upkeep s (writeEnds x s) := by
  refine passTurn_upkeep ?_ fun sound => sound.exchange x running
  split
  · exact .refl s
  · exact updAxis_aside id

theorem readArrives_upkeep {x : Exchange} (running : s.exchange = some x) (position : Word) (status check : Byte) :
    Upkeep s (readArrives x position status check s) := by
  unfold readArrives
  split
  · refine passTurn_upkeep ?_ fun sound => sound.exchange x running
    split
    · exact .refl s
    · exact (updAxis_aside id).trans (supervise_aside _ _ _ _)
  · exact missExchange_upkeep running

/-! ### Every command -/

theorem stepAll_upkeep (s : State) : Upkeep s (stepAll s) := by
  have ticked : Aside s { s with stepCounter := s.stepCounter + 1, sounder := s.sounder.tick } :=
    .of_tables (fun _ => .refl _) (fun _ => id) rfl
  have counted : Upkeep s (counted s) := ticked.upkeep.trans (Upkeep.foldl _ _ (fun t st => countSilence_upkeep st t) _)
  have flown := counted.trans (Aside.foldl allFlights _ (fun t f => flightExpiry_aside (turnsSilent s) f t) _).upkeep
  exact (flown.trans (roundStep_upkeep _)).trans (scannerStep_upkeep _)

theorem assertReset_upkeep (s : State) : Upkeep s (assertReset s) where
  ports _ := reset_portsSound
  bus _ := ⟨reset_busSound.running, reset_busSound.pending, reset_busSound.turn, reset_busSound.exchange⟩
  scanner _ := ⟨reset_scannerSound.stopped, reset_scannerSound.waiting, reset_scannerSound.scanning⟩
  enables _ := fun v => by
    have none (i : LinkId) : (assertReset s).link i = none := reset_link i
    have off : (assertReset s).enables.get v = false := reset_enable v
    simp [off, none, EnableHolds]

theorem exec_upkeep {i : Instr} (run : exec i s = .next t) : Upkeep s t := by
  cases e : encodeRequest i with
  | some frame =>
    obtain ⟨st, kind, body⟩ := frame
    rw [exec_request s e] at run
    exact onRequest_upkeep (serveRequest_upkeep i) run
  | none =>
    cases i <;> first | (cases e; done) | skip
    case readLines st filters => cases filters <;> cases e
    case resetnAssert => cases run; exact assertReset_upkeep s
    case resetEnd => cases run; split; exacts [releaseReset_upkeep s, .refl s]
    case unknownKind st kind =>
      change execUnknownKind st kind s = _ at run
      unfold execUnknownKind at run
      split at run
      · cases run; exact .refl s
      · exact onRequest_upkeep (fun t => .refl t) run
    case byteReceived =>
      cases run
      unfold byteArrives
      repeat' split
      · exact .refl s
      · exact receiveByte_upkeep _ _ s
      · exact discardFrame_upkeep _ _ s
    case gap => cases run; split; exacts [.refl s, discardFrame_upkeep _ _ s]
    case replySent => cases run; split; exacts [.refl s, replyEnds_upkeep _ s]
    case stepExpiry => cases run; split; exacts [stepAll_upkeep s, .refl s]
    case dwellExpiry f =>
      cases run
      repeat' split
      · exact (endDwell_aside f s).upkeep
      all_goals exact .refl s
    case brakeTimeout f =>
      cases run
      repeat' split
      · exact (tripFlight_aside f _ s).upkeep
      all_goals exact .refl s
    case silence st =>
      cases run
      split
      · exact (countSilence_upkeep st s).trans (restrainClaimed_aside st _ _).upkeep
      · exact .refl s
    case sndrPhaseExpiry =>
      have sounding (x : Sounder) : Aside s { s with sounder := x } := .of_tables (fun _ => .refl _) (fun _ => id) rfl
      cases run
      repeat' split
      · exact (sounding _).upkeep
      all_goals exact .refl s
    case exchangeStart =>
      cases run
      repeat' split
      · exact .refl s
      · rename_i due _ p _ _
        exact .of_bus rfl fun h => ⟨h.running, h.pending, h.turn, fun y begun => by cases begun; exact due⟩
      all_goals exact .refl s
    case heldLine =>
      cases run
      repeat' split
      · exact .refl s
      · rename_i due _
        exact passTurn_upkeep (countMiss_aside _ _ s) fun _ => due
      · exact .refl s
    case writeComplete =>
      cases run
      repeat' split
      · rename_i running _; exact writeEnds_upkeep running
      all_goals exact .refl s
    case readComplete =>
      cases run
      repeat' split
      · rename_i running _; exact readArrives_upkeep running _ _ _
      all_goals exact .refl s
    case answerHoldTimeout =>
      cases run
      repeat' split
      · rename_i running _; exact missExchange_upkeep running
      all_goals exact .refl s
    case missedExchange =>
      cases run
      repeat' split
      · exact .refl s
      · rename_i running _; exact missExchange_upkeep running
      · exact .refl s
    case rawLevelChange => cases run; exact rawChange_upkeep _ _ s
    case filterAccept =>
      cases run
      repeat' split
      · exact acceptChange_upkeep _ _ s
      all_goals exact .refl s
    case lineSettle => cases run; split; exacts [settleLine_upkeep _ s, .refl s]
    case conversionComplete raw =>
      cases run
      repeat' split
      · exact .refl s
      · rename_i k converting _
        refine (newResult_upkeep k raw.toNat .converted s).trans (nextConversion_upkeep (k := k) ?_)
        rw [newResult, sourceEvent, (takeInAnyOrder_taken _ _).books.scanState]
        exact converting
      all_goals exact .refl s

theorem step_upkeep (h : step s = .next t) : Upkeep s t := by
  unfold step at h
  split at h
  · cases h; exact .refl s
  · have taken (rest : List Instr) : Aside s { s with pending := rest } := .of_tables (fun _ => .refl _) (fun _ => id) rfl
    exact (taken _).upkeep.trans (exec_upkeep h)

end

/-- Settles O11: each command keeps each of the four books by itself. -/
theorem stepKeepsControllers : Obligations.StepKeepsControllers :=
  ⟨fun _ _ sound h => (step_upkeep h).ports sound, fun _ _ sound h => (step_upkeep h).bus sound,
    fun _ _ sound h => (step_upkeep h).scanner sound, fun _ _ sound h => (step_upkeep h).enables sound⟩

end Sys2Proof.Machine
end

section
namespace Sys2Proof.Machine

/-! ## Station authority: claims, driving requests and silence (06, R107 to R119) -/

/-! ### CLAIM and RELEASE (06, R107, R109) -/

theorem serveClaim_badParameter {st : Station} {flight take : Byte} {s : State} (out : 6 ≤ flight.toNat ∨ 2 ≤ take.toNat) :
    serveClaim st flight take s = refuse s .badParameter := by
  unfold serveClaim
  rcases out with out | out
  · rw [flightOf_none out]
  · rw [flagOf_none out]; split <;> simp_all

/-- Settles O21, by the cases of the table. -/
theorem claimTable : Obligations.ClaimTable := by
  refine ⟨fun st flight take s live out =>
    exec_refused (i := .claim st flight take) rfl live (serveClaim_badParameter out), ?_⟩
  intro st flight take f s hf live flag granted
  have spelled : encodeRequest (.claim st flight take) = some (st, kindClaim, _) := rfl
  have taken : (decide (take = 1) = false) ↔ take = 0 := by
    rw [decide_eq_false_iff_not]
    constructor <;> intro h <;> bv_omega
  have served : serveRequest (.claim st flight take) (markHeard st s) = match (s.flight f).claim with
      | none => accept (setClaim f (some st) (markHeard st s))
      | some holder =>
        if holder = st then accept (markHeard st s)
        else if take = 0 then refuse (markHeard st s) .claimedElsewhere
        else if (s.flight f).state.allowsTake then accept (setClaim f (some st) (markHeard st s))
        else refuse (markHeard st s) .badState := by
    show serveClaim st flight take (markHeard st s) = _
    simp only [serveClaim, flightOf_of_names hf, flagOf_some flag, markHeard_flight, taken]
    rfl
  cases claim : (s.flight f).claim with
  | none =>
    rw [claim] at served
    exact exec_accepted spelled live served
  | some holder =>
    rw [claim] at served
    by_cases own : holder = st
    · rw [if_pos (congrArg some own)]
      exact exec_accepted spelled live (served.trans (if_pos own))
    · rw [if_neg (mt Option.some.inj own), if_neg (Option.some_ne_none holder)]
      dsimp only at served
      rw [if_neg own] at served
      by_cases ask : take = 0
      · rw [if_pos ask]
        exact exec_refused spelled live (served.trans (if_pos ask))
      · rw [if_neg ask]
        rw [if_neg ask] at served
        cases state : (s.flight f).state <;> rw [state] at served
        case parked | ready | held | tripped => exact exec_accepted spelled live served
        all_goals exact exec_refused spelled live served

/-- Settles O22: the three checks of RELEASE in their order, then its effect. -/
theorem releaseRule : Obligations.ReleaseRule := by
  refine ⟨fun st flight s live out => exec_refused (i := .release st flight) rfl live ?_, ?_⟩
  · show serveRelease st flight _ = _
    rw [serveRelease, flightOf_none out]
  intro st flight f s hf live
  have spelled : encodeRequest (.release st flight) = some (st, kindRelease, _) := rfl
  have served : serveRequest (.release st flight) (markHeard st s) =
      if (s.flight f).claim ≠ some st then refuse (markHeard st s) .notClaimed
      else if (s.flight f).state.allowsRelease then accept (setClaim f none (markHeard st s))
      else refuse (markHeard st s) .badState := by
    show serveRelease st flight (markHeard st s) = _
    simp only [serveRelease, flightOf_of_names hf, markHeard_flight]
    rfl
  by_cases other : (s.flight f).claim ≠ some st
  · rw [if_pos other]
    exact exec_refused spelled live (served.trans (if_pos other))
  · rw [if_neg other]
    rw [if_neg other] at served
    cases state : (s.flight f).state <;> rw [state] at served
    case free | parked | tripped => exact exec_accepted spelled live served
    all_goals exact exec_refused spelled live served

/-! ### Driving requests (06, R111; 10, R176) -/

section
variable {i : Instr} {st : Station} {kind flight : Byte} {body : List Byte} {f : FlightId} {s : State}
  {owner : FlightId → State × Answer}

/-- A driving request's row that names no flight. -/
theorem exec_noFlight (spelled : encodeRequest i = some (st, kind, body)) (live : s.resetAsserted = false)
    (drives : serveRequest i (markHeard st s) = driving st flight (markHeard st s) owner) (out : 6 ≤ flight.toNat) :
    exec i s = .next (answer st kind .badParameter s) :=
  exec_refused spelled live (drives.trans (driving_noFlight out))

/-- A driving request's row of a station that does not claim the flight. -/
theorem exec_unclaimed (spelled : encodeRequest i = some (st, kind, body)) (live : s.resetAsserted = false)
    (drives : serveRequest i (markHeard st s) = driving st flight (markHeard st s) owner) (hf : NamesFlight flight f)
    (other : (s.flight f).claim ≠ some st) : exec i s = .next (answer st kind .notClaimed s) :=
  exec_refused spelled live (drives.trans (driving_unclaimed (s := markHeard st s) hf other))

/-- ARM, GO and RESUME of a claimer that may not start are refused. -/
theorem drivingEnabled_barred (hf : NamesFlight flight f) (claim : (s.flight f).claim = some st) (barred : s.mayStart st = false) :
    drivingEnabled st flight s owner = refuse s .notEnabled := by
  simp [drivingEnabled, driving_claimed hf claim, barred]

theorem exec_barred (spelled : encodeRequest i = some (st, kind, body)) (live : s.resetAsserted = false)
    (drives : serveRequest i (markHeard st s) = drivingEnabled st flight (markHeard st s) owner) (hf : NamesFlight flight f)
    (claim : (s.flight f).claim = some st) (enable : s.enables.get st = false) :
    exec i s = .next (answer st kind .notEnabled s) :=
  exec_refused spelled live (drives.trans (drivingEnabled_barred (s := markHeard st s) hf claim
    ((markHeard_mayStart st s).trans enable)))

/-- The end of a reply takes the request that waits in the buffer (10, R176, R177). -/
theorem exec_replySent_buffered {fr : Frame} (live : s.resetAsserted = false) (sending : (s.port st).tx ≠ .idle)
    (waiting : (s.port st).buffer = some fr) :
    exec (.replySent st) s = .next (takeFrame st fr (s.updPort st fun p => { p with tx := .idle, buffer := none })) := by
  show execReplySent st s = _
  simp [execReplySent, live, sending, replyEnds, waiting]

theorem takeFrame_request {fr : Frame} (spelled : decodeRequest st fr.kind fr.body = .request i) :
    takeFrame st fr s = takeRequest st fr.kind (serveRequest i) s := by
  rw [takeFrame, spelled]

/-- A buffered ARM, GO or RESUME of a claimer that has fallen SILENT is refused when it is taken (06, R111 check 3). -/
theorem exec_replySent_silent (spelled : decodeRequest st kind [flight] = .request i)
    (drives : ∀ u, ∃ owner, serveRequest i u = drivingEnabled st flight u owner) (live : s.resetAsserted = false)
    (hf : NamesFlight flight f) (claim : (s.flight f).claim = some st) (silent : s.silents.get st = true)
    (sending : (s.port st).tx ≠ .idle) (waiting : (s.port st).buffer = some { kind := kind, body := [flight] }) :
    exec (.replySent st) s =
      .next (reply st kind .notEnabled (s.updPort st fun p => { p with tx := .idle, buffer := none })) := by
  rw [exec_replySent_buffered live sending waiting, takeFrame_request (fr := { kind := kind, body := [flight] }) spelled]
  obtain ⟨owner, drives⟩ := drives (s.updPort st fun p => { p with tx := .idle, buffer := none })
  have barred : (s.updPort st fun p => { p with tx := .idle, buffer := none }).mayStart st = false := by
    show (s.enables.get st && !s.silents.get st) = false
    rw [silent]; simp
  rw [takeRequest, drives,
    drivingEnabled_barred (s := s.updPort st fun p => { p with tx := .idle, buffer := none }) hf claim barred]
  rfl

end

theorem serveBind_unclaimed {st : Station} {flight : Byte} {axes : List Byte} {f : FlightId} {s : State} (hf : NamesFlight flight f)
    (listed : (bindAxesOf axes).isSome = true) (other : (s.flight f).claim ≠ some st) :
    serveBind st flight axes s = refuse s .notClaimed := by
  obtain ⟨ns, hns⟩ := Option.isSome_iff_exists.mp listed
  simp only [serveBind, flightOf_of_names hf, hns, if_pos other]

theorem serveConfigureAxis_unclaimed {st : Station} {axis address : Byte} {lower upper vmax : Word} {amax : Half} {window : Word}
    {slot : Byte} {n : AxisId} {f : FlightId} {s : State} (hn : axis.toNat = n.val) (bound : (s.axis n).flight = some f)
    (taken : (paramsOf address lower upper vmax amax window slot).isSome = true) (other : (s.flight f).claim ≠ some st) :
    serveConfigureAxis st axis address lower upper vmax amax window slot s = refuse s .notClaimed := by
  obtain ⟨p, hp⟩ := Option.isSome_iff_exists.mp taken
  simp [serveConfigureAxis, axisOf_some hn, hp, bound, other]

/-- Settles O19: each request is `driving` on its owner, behind the check of its fields where it has any. -/
theorem drivingNeedsTheClaim : Obligations.DrivingNeedsTheClaim := by
  constructor
  · intro st flight s out live
    exact ⟨exec_noFlight (i := .unbind st flight) rfl live rfl out, exec_noFlight (i := .arm st flight) rfl live rfl out,
      exec_noFlight (i := .go st flight) rfl live rfl out, exec_noFlight (i := .resume st flight) rfl live rfl out,
      exec_noFlight (i := .cancel st flight) rfl live rfl out, exec_noFlight (i := .park st flight) rfl live rfl out,
      exec_noFlight (i := .resetFlight st flight) rfl live rfl out, exec_noFlight (i := .openCue st flight) rfl live rfl out,
      exec_noFlight (i := .closeCue st flight) rfl live rfl out, exec_noFlight (i := .flush st flight) rfl live rfl out⟩
  · intro st flight f s hf live
    refine ⟨fun other => ⟨exec_unclaimed (i := .unbind st flight) rfl live rfl hf other,
      exec_unclaimed (i := .arm st flight) rfl live rfl hf other, exec_unclaimed (i := .go st flight) rfl live rfl hf other,
      exec_unclaimed (i := .resume st flight) rfl live rfl hf other, exec_unclaimed (i := .cancel st flight) rfl live rfl hf other,
      exec_unclaimed (i := .park st flight) rfl live rfl hf other,
      exec_unclaimed (i := .resetFlight st flight) rfl live rfl hf other,
      exec_unclaimed (i := .openCue st flight) rfl live rfl hf other,
      exec_unclaimed (i := .closeCue st flight) rfl live rfl hf other,
      exec_unclaimed (i := .flush st flight) rfl live rfl hf other, fun axes listed => ?_, fun decel lo hi ranged => ?_,
      fun tag presence t0 t1 t2 t3 vmax aUp aDn dwell start flags ranged => ?_,
      fun axis n address lower upper vmax amax window slot hn bound ranged => ?_⟩,
      fun claim enable => ⟨exec_barred (i := .arm st flight) rfl live rfl hf claim enable,
        exec_barred (i := .go st flight) rfl live rfl hf claim enable,
        exec_barred (i := .resume st flight) rfl live rfl hf claim enable⟩,
      fun kind listed claim silent sending waiting => ?_⟩
    · exact exec_refused (i := .bind st flight axes) rfl live (serveBind_unclaimed (s := markHeard st s) hf listed other)
    · obtain ⟨⟨d, l, h⟩, taken⟩ := Option.isSome_iff_exists.mp ranged
      refine exec_unclaimed (i := .setFlightLimits st flight decel lo hi) rfl live ?_ hf other
        (owner := fun f => accept ((markHeard st s).updFlight f fun r => { r with holdDecel := d, loadMin := l, loadMax := h }))
      show serveSetFlightLimits st flight decel lo hi _ = _
      rw [serveSetFlightLimits, taken]
    · obtain ⟨seg, taken⟩ := Option.isSome_iff_exists.mp ranged
      refine exec_refused (i := .append st flight tag presence t0 t1 t2 t3 vmax aUp aDn dwell start flags) rfl live ?_
      show serveAppend st flight tag presence t0 t1 t2 t3 vmax aUp aDn dwell start flags _ = _
      rw [serveAppend, taken]
      exact driving_unclaimed (s := markHeard st s) hf other
    · exact exec_refused (i := .configureAxis st axis address lower upper vmax amax window slot) rfl live
        (serveConfigureAxis_unclaimed (s := markHeard st s) hn bound ranged other)
    · simp only [List.mem_cons, List.not_mem_nil, or_false] at listed
      rcases listed with rfl | rfl | rfl
      · exact exec_replySent_silent (i := .arm st flight) rfl (fun u => ⟨_, rfl⟩) live hf claim silent sending waiting
      · exact exec_replySent_silent (i := .go st flight) rfl (fun u => ⟨_, rfl⟩) live hf claim silent sending waiting
      · exact exec_replySent_silent (i := .resume st flight) rfl (fun u => ⟨_, rfl⟩) live hf claim silent sending waiting

/-! ### Silence (06, R117, R118) -/

/-- Settles O23: the counter that reaches 250 restrains the flights that the station claims. -/
theorem silenceRestrains : Obligations.SilenceRestrains := by
  intro st s running active last
  have falls : turnsSilent s st = true := (turnsSilent_iff s st).mpr ⟨active, last.ge⟩
  have counted : countSilence st s = (s.updPort st fun p => { p with silence := 250 }).setSilent st true := by
    simp [countSilence, active, falls, silenceSteps]
  refine ⟨restrainClaimed st .stationSilent (countSilence st s), ?_, counted ▸ restrainClaimed_spec st .stationSilent _⟩
  show execSilence st s = _
  simp [execSilence, running, falls]

end Sys2Proof.Machine
end

section
namespace Sys2Proof.Machine

/-! ## The receiver (10, R173 to R177) -/

/-! ### Updates of one port -/

section
variable (s : State) (st : Station)

theorem updPort_updPort (g h : Port → Port) : (s.updPort st g).updPort st h = s.updPort st fun p => h (g p) := by
  cases st <;> rfl

theorem updPort_congr {g h : Port → Port} (same : g (s.port st) = h (s.port st)) : s.updPort st g = s.updPort st h := by
  have fixed (g : Port → Port) : s.updPort st g = s.updPort st fun _ => g (s.port st) := by cases st <;> rfl
  rw [fixed g, same, ← fixed h]

theorem updPort_id {g : Port → Port} (same : g (s.port st) = s.port st) : s.updPort st g = s :=
  (updPort_congr s st (h := id) same).trans (by cases st <;> rfl)

theorem markHeard_updPort (g : Port → Port) :
    markHeard st (s.updPort st g) = (s.updPort st fun p => { g p with silence := 0 }).setSilent st false := by
  rw [markHeard, updPort_updPort]

theorem setSilent_updPort (b : Bool) (g : Port → Port) : (s.setSilent st b).updPort st g = (s.updPort st g).setSilent st b := rfl

end

/-- The receiver of a port in a stage, with the bytes it has of a frame. -/
def assembling (st : Station) (stage : RxStage) (asm : Assembly) (s : State) : State :=
  s.updPort st fun p => { p with stage := stage, assembly := asm }

section
variable {st : Station} {stage : RxStage} {asm : Assembly} {s : State} {b len : Byte}

@[simp] theorem assembling_stage : ((assembling st stage asm s).port st).stage = stage := by simp [assembling]
@[simp] theorem assembling_assembly : ((assembling st stage asm s).port st).assembly = asm := by simp [assembling]
@[simp] theorem assembling_buffer : ((assembling st stage asm s).port st).buffer = (s.port st).buffer := by simp [assembling]
@[simp] theorem assembling_tx : ((assembling st stage asm s).port st).tx = (s.port st).tx := by simp [assembling]

@[simp] theorem assembling_assembling (stage' : RxStage) (asm' : Assembly) :
    assembling st stage' asm' (assembling st stage asm s) = assembling st stage' asm' s := updPort_updPort ..

/-! ### One byte, by the stage of the receiver (10, R174) -/

theorem exec_byteReceived (live : s.resetAsserted = false) : exec (.byteReceived st b true) s = .next (receiveByte st b s) := by
  show execByteReceived st b true s = _
  simp [execByteReceived, byteArrives, live]

theorem receiveByte_hunting (staged : (s.port st).stage = .hunting) :
    receiveByte st b s = if b = 0xA5 then assembling st .length .empty s else s := by
  rw [receiveByte, staged]; rfl

theorem receiveByte_length (staged : (s.port st).stage = .length) :
    receiveByte st b s = if b.toNat = 0 ∨ 200 < b.toNat then discardFrame st (fun e => { e with length := true }) s
      else assembling st .content { (s.port st).assembly with length := some b } s := by
  rw [receiveByte, staged]
  by_cases out : b.toNat = 0 ∨ 200 < b.toNat
  · rw [if_pos out]
    exact if_neg (by omega)
  · rw [if_neg out]
    exact (if_pos (by omega)).trans (updPort_congr s st rfl)

theorem receiveByte_content (staged : (s.port st).stage = .content) (counted : (s.port st).assembly.length = some len) :
    receiveByte st b s =
      assembling st (if len.toNat ≤ (s.port st).assembly.content.length + 1 then .check else .content)
        { (s.port st).assembly with content := (s.port st).assembly.content ++ [b] } s := by
  rw [receiveByte, staged]
  exact updPort_congr s st (by simp [counted])

theorem receiveByte_firstCrc (staged : (s.port st).stage = .check) (blank : (s.port st).assembly.crc = []) :
    receiveByte st b s = assembling st .check { (s.port st).assembly with crc := [b] } s := by
  rw [receiveByte, staged]
  simp only [blank, List.nil_append, List.length_singleton, Nat.one_lt_ofNat, if_true]
  exact updPort_congr s st (by rw [staged])

/-- The second CRC byte completes the frame, which is discarded or placed. -/
theorem receiveByte_secondCrc {c kind : Byte} {body : List Byte} (staged : (s.port st).stage = .check)
    (counted : (s.port st).assembly.length = some len) (content : (s.port st).assembly.content = kind :: body)
    (one : (s.port st).assembly.crc = [c]) :
    receiveByte st b s =
      if c ++ b = crc16 (len :: kind :: body) then placeFrame st { kind := kind, body := body } s
      else discardFrame st (fun e => { e with crc := true }) s := by
  rw [receiveByte, staged]
  simp only [one, List.singleton_append, List.length_cons, List.length_nil, Nat.lt_irrefl, if_false, completeFrame, counted,
    content, Option.getD_some, List.tail_cons]
  exact if_congr eq_comm rfl rfl

/-! ### A complete frame (10, R174 to R176) -/

theorem placeFrame_full {fr : Frame} (full : (s.port st).buffer ≠ none) :
    placeFrame st fr s = discardFrame st (fun e => { e with overrun := true }) s := by
  obtain ⟨held, full⟩ := Option.ne_none_iff_exists'.mp full
  rw [placeFrame, full]

theorem placeFrame_sending {fr : Frame} (empty : (s.port st).buffer = none) (busy : (s.port st).tx ≠ .idle) :
    placeFrame st fr s = (s.updPort st fun p =>
      { p with stage := .hunting, assembly := .empty, silence := 0, buffer := some fr }).setSilent st false := by
  rw [placeFrame, empty]
  cases sent : (s.port st).tx with
  | idle => exact absurd sent busy
  | sending bytes =>
    show (markHeard st _).updPort st _ = _
    rw [markHeard_updPort, setSilent_updPort, updPort_updPort]

theorem placeFrame_quiet {fr : Frame} (empty : (s.port st).buffer = none) (quiet : (s.port st).tx = .idle) :
    placeFrame st fr s = takeFrame st fr (markHeard st (assembling st .hunting .empty s)) := by
  rw [placeFrame, empty, quiet]; rfl

end

/-- Settles O60, by the stage of the receiver and, behind a frame's last byte, by its CRC, the buffer and the transmitter. -/
theorem receiverStages : Obligations.ReceiverStages := by
  intro st b s live p lost
  have received {t : State} (arrives : receiveByte st b s = t) : exec (.byteReceived st b true) s = .next t :=
    (exec_byteReceived live).trans (congrArg _ arrives)
  refine ⟨?_, ?_⟩
  · show execByteReceived st b false s = _
    simp [execByteReceived, byteArrives, live, discardFrame, lost]
  cases stage : p.stage with
  | hunting => exact received (receiveByte_hunting stage)
  | length =>
    refine received ((receiveByte_length stage).trans ?_)
    split
    · rfl
    · exact updPort_congr s st rfl
  | content => exact fun len counted => received ((receiveByte_content stage counted).trans (updPort_congr s st rfl))
  | check =>
    refine fun len kind body counted content => ⟨fun none => ?_, fun c one => ⟨fun wrong => ?_, fun right full => ?_,
      fun right empty busy => ?_⟩⟩
    · exact received ((receiveByte_firstCrc stage none).trans (updPort_congr s st (by rw [← stage])))
    all_goals refine received ((receiveByte_secondCrc stage counted content one).trans ?_)
    · exact if_neg wrong
    · exact (if_pos right).trans (placeFrame_full full)
    · exact (if_pos right).trans (placeFrame_sending empty busy)

/-! ### The bytes of a frame, one after the other (10, section 10.2) -/

section
variable {st : Station} {s : State}

theorem execAll_byte {b : Byte} {rest : List Instr} (live : s.resetAsserted = false) :
    execAll (.byteReceived st b true :: rest) s = execAll rest (receiveByte st b s) := by
  rw [execAll, exec_byteReceived live]

/-- The bytes counted by LENGTH gather behind those already received, and the last of them leads to the CRC. -/
theorem execAll_content {len : Byte} {rest : List Instr} (live : s.resetAsserted = false) :
    ∀ (bytes got : List Byte), bytes ≠ [] → len.toNat = got.length + bytes.length →
      execAll ((bytes.map fun b => .byteReceived st b true) ++ rest)
          (assembling st .content { length := some len, content := got, crc := [] } s) =
        execAll rest (assembling st .check { length := some len, content := got ++ bytes, crc := [] } s)
  | [], _, nonempty, _ => absurd rfl nonempty
  | b :: bytes, got, _, counted => by
    rw [List.map_cons, List.cons_append, execAll_byte (s := assembling _ _ _ s) live,
      receiveByte_content assembling_stage (by rw [assembling_assembly]), assembling_assembly, assembling_assembling]
    rw [List.length_cons] at counted
    cases bytes with
    | nil =>
      have last : len.toNat ≤ got.length + 1 := counted.le
      rw [if_pos last]
      rfl
    | cons c bytes =>
      have more : ¬len.toNat ≤ got.length + 1 := by rw [List.length_cons] at counted; omega
      rw [if_neg more, execAll_content live (c :: bytes) (got ++ [b]) (List.cons_ne_nil _ _)
        (by simp at counted ⊢; omega), List.append_assoc, List.singleton_append]

/-- The bytes of a frame on a quiet port hand its KIND and BODY on with the port as it was. -/
theorem execAll_frameBytes {kind : Byte} {body : List Byte} (fits : body.length ≤ 199) (live : s.resetAsserted = false)
    (stage : (s.port st).stage = .hunting) (clear : (s.port st).assembly = .empty) (empty : (s.port st).buffer = none)
    (quiet : (s.port st).tx = .idle) :
    execAll ((frameBytes kind body).map fun b => .byteReceived st b true) s =
      .next (takeFrame st { kind := kind, body := body } (markHeard st s)) := by
  have counted : (natByte (body.length + 1)).toNat = body.length + 1 := by
    simp [natByte]; omega
  have home : assembling st .hunting .empty s = s := updPort_id s st (by rw [← stage, ← clear])
  have split : (frameBytes kind body).map (fun b => Instr.byteReceived st b true) =
      .byteReceived st 0xA5 true :: .byteReceived st (natByte (body.length + 1)) true ::
        ((kind :: body).map (fun b => .byteReceived st b true) ++
          (halfBytes (crc16 (natByte (body.length + 1) :: kind :: body))).map fun b => .byteReceived st b true) := by
    rw [frameBytes_eq, List.map_append]; rfl
  have crc : ∀ h : Half, h.extractLsb' 8 8 ++ h.extractLsb' 0 8 = h := fun h => halfAt_halfBytes h []
  rw [split, execAll_byte live, receiveByte_hunting stage, if_pos rfl, execAll_byte (s := assembling st .length .empty s) live,
    receiveByte_length assembling_stage, if_neg (by omega), assembling_assembly, assembling_assembling]
  show execAll _ (assembling st .content { length := some (natByte (body.length + 1)), content := [], crc := [] } s) = _
  rw [execAll_content live (kind :: body) [] (List.cons_ne_nil _ _) (by simpa using counted), List.nil_append, halfBytes,
    List.map_cons, List.map_singleton, execAll_byte (s := assembling _ _ _ s) live, receiveByte_firstCrc assembling_stage (by rw [assembling_assembly]),
    assembling_assembly, assembling_assembling, execAll_byte (s := assembling _ _ _ s) live,
    receiveByte_secondCrc assembling_stage (by rw [assembling_assembly]) (by rw [assembling_assembly])
      (by rw [assembling_assembly]),
    if_pos (crc _), placeFrame_quiet (assembling_buffer.trans empty) (assembling_tx.trans quiet), assembling_assembling, home]
  rfl

end

/-- A decoded request is spelled with the station and the KIND of its frame (10, R179). -/
theorem encodeRequest_of_decoded {st : Station} {kind : Byte} {body : List Byte} {i : Instr}
    (h : decodeRequest st kind body = .request i) : ∃ b, encodeRequest i = some (st, kind, b) := by
  have named {n : Nat} {j : Instr} (h : ofLength n body j = .request i) : j = i := by
    rw [ofLength] at h
    split at h
    · exact Decoded.request.inj h
    · cases h
  have spelled {k : Byte} {b : List Byte} (number : kind.toNat = k.toNat) : some (st, k, b) = some (st, kind, b) := by
    rw [BitVec.eq_of_toNat_eq number]
  unfold decodeRequest at h
  split at h <;> rename_i number
  case h_30 => cases h
  case h_3 =>
    split at h <;> cases h
    exact ⟨_, spelled number⟩
  case h_29 =>
    split at h
    · cases h; exact ⟨_, spelled number⟩
    · split at h <;> cases h
      exact ⟨_, spelled number⟩
  all_goals
    cases named h
    exact ⟨_, spelled number⟩

/-- Settles O17: the bytes gather to the frame, whose taking is what its request's row does. -/
theorem frameBytesTakeTheRequest : Obligations.FrameBytesTakeTheRequest := by
  intro st kind body s fits live stage clear empty quiet
  rw [execAll_frameBytes fits live stage clear empty quiet, takeFrame]
  cases decoded : decodeRequest st kind body with
  | unknownKind => rfl
  | badLength => rfl
  | request i =>
    obtain ⟨b, spelled⟩ := encodeRequest_of_decoded decoded
    exact (exec_served spelled live).symm

end Sys2Proof.Machine
end

section
namespace Sys2Proof.Machine

/-! ## STATUS (10, R181, R182) -/

/-! ### The fields of its BODY, offset by offset -/

section
variable (st : Station) (s : State)

theorem statusData_length : (statusData st s).length = 39 := rfl

theorem statusData_stepCounter : wordAt (0 :: statusData st s) 1 = s.stepCounter :=
  (wordAt_append [0] _ 0).trans (wordAt_wordBytes s.stepCounter _)

theorem statusData_flight (f : FlightId) : byteAt (0 :: statusData st s) (5 + 2 * f) = (s.flight f).state.byte ∧
    byteAt (0 :: statusData st s) (6 + 2 * f) = claimByte (s.flight f).claim := by
  fin_cases f <;> exact ⟨rfl, rfl⟩

theorem statusData_axis (n : AxisId) : byteAt (0 :: statusData st s) (17 + n) = (s.axis n).state.byte := by
  fin_cases n <;> rfl

theorem statusData_station (k : Station) :
    byteAt (0 :: statusData st s) (29 + (stationByte k).toNat) = flagsByte [s.enables.get k, s.silents.get k] := by
  cases k <;> rfl

theorem statusData_notices (f : FlightId) :
    byteAt (0 :: statusData st s) (32 + f) = ((s.port st).flightNotices[f]).byte := by
  fin_cases f <;> rfl

theorem statusData_portNotices :
    byteAt (0 :: statusData st s) 38 = flagsByte [(s.port st).linesNotice, (s.port st).linkNotice] := rfl

theorem statusData_errors : byteAt (0 :: statusData st s) 39 = (s.port st).errors.byte := rfl

end

/-- Settles O56, field by field over the state in which the sender has been heard. -/
theorem statusReports : Obligations.StatusReports := by
  intro st s live
  have own : (markHeard st s).port st = { s.port st with silence := 0 } := by simp
  refine ⟨statusData st (markHeard st s), exec_served (i := .status st) rfl live, ?_, statusData_stepCounter _ _,
    statusData_flight _ _, statusData_axis _ _, fun k b low => ?_, fun f b low => ?_, fun b low => ?_, fun b low => ?_⟩
  · rw [List.length_cons, statusData_length]
  · rw [statusData_station, flagsByte_getLsbD _ low, markHeard_silent]
    match b with
    | 0 | 1 | _ + 2 => rfl
  · rw [statusData_notices, FlightNotices.byte, flagsByte_getLsbD _ low, own]
    match b with
    | 0 | 1 | 2 | 3 | 4 | _ + 5 => rfl
  · rw [statusData_portNotices, flagsByte_getLsbD _ low, own]
    match b with
    | 0 | 1 | _ + 2 => rfl
  · rw [statusData_errors, ErrorFlags.byte, flagsByte_getLsbD _ low, own]
    match b with
    | 0 | 1 | 2 | 3 | 4 | _ + 5 => rfl

end Sys2Proof.Machine
end

section
namespace Sys2Proof.Machine

/-! ## Links written (09, R163, R166; 06, R113 to R115) -/

/-! ### One effect among others, in any order -/

/-- What holds until one entry of a list is taken and what holds from there on, whatever the order. -/
theorem takeInAnyOrder_passes {α : Type} {l : List α} {a : α} {act : α → State → State} {s : State} {before behind : State → Prop}
    (nodup : l.Nodup) (mem : a ∈ l) (start : ∀ k, before { s with freeIndex := k })
    (keeps : ∀ b ∈ l, b ≠ a → ∀ t, before t → before (act b t)) (turns : ∀ t, before t → behind (act a t))
    (stays : ∀ b ∈ l, b ≠ a → ∀ t, behind t → behind (act b t)) : behind (takeInAnyOrder l act s) := by
  have order := anyOrder_perm l.length l s.freeIndex
  obtain ⟨pre, post, split, notPre, notPost⟩ := split_at_mem (order.nodup_iff.mpr nodup) (order.mem_iff.mpr mem)
  have listed {b : α} (h : b ∈ pre ∨ b ∈ post) : b ∈ l :=
    order.mem_iff.mp (split ▸ List.mem_append.mpr (h.imp_right (List.mem_cons_of_mem _)))
  rw [takeInAnyOrder, split, List.foldl_append, List.foldl_cons]
  refine List.foldlRecOn post _ (turns _ (List.foldlRecOn pre _ (start _) fun t ht b hb => ?_)) fun t ht b hb => ?_
  · exact keeps b (listed (.inl hb)) (fun e => notPre (e ▸ hb)) t ht
  · exact stays b (listed (.inr hb)) (fun e => notPost (e ▸ hb)) t ht

/-- What a link sends, beside one enable to compute again. -/
theorem sends_recompute_nodup (i : LinkId) (act : Action) (u : Station) : (sends i act ++ [Effect.recompute u]).Nodup := by
  refine List.nodup_append.mpr ⟨?_, List.nodup_singleton _, fun e sent e' last => ?_⟩
  · cases act
    case holdAll | tripAll => exact allFlights_nodup.map fun f g h => by cases h; rfl
    all_goals simp [sends]
  · obtain rfl := List.mem_singleton.mp last
    rintro rfl
    cases act <;> simp [sends] at sent

theorem recompute_mem_sends {i : LinkId} {act : Action} {u v : Station} :
    Effect.recompute v ∈ sends i act ++ [.recompute u] ↔ v = u := by
  cases act <;> simp [sends]

/-! ### A flight that meets an effect -/

section
variable {u : Station} {f g : FlightId} {s t : State}

/-- An enable computed again leaves a flight, or restrains it where its station loses the enable (06, R115). -/
theorem EnableComputed.flight (h : EnableComputed u s t) (f : FlightId) : t.flight f = s.flight f ∨
    (s.flight f).claim = some u ∧ s.enables.get u = true ∧ t.enables.get u = false ∧
      t.flight f = (s.flight f).afterRestraint .enableLost := by
  by_cases lost : s.enables.get u = true ∧ t.enables.get u = false
  · have restrained := (h.lost lost.1 lost.2).flights f
    by_cases claim : (s.flight f).claim = some u
    · exact .inr ⟨claim, lost.1, lost.2, restrained.trans (if_pos claim)⟩
    · exact .inl (restrained.trans (if_neg claim))
  · rw [not_and_or, Bool.not_eq_true, Bool.not_eq_false] at lost
    rw [h.kept lost]
    exact .inl rfl

/-- A flight that no hold can move. -/
def Flight.Still (r : Flight) : Prop := r.state ≠ .moving ∧ r.state ≠ .dwell

/-- A flight that no trip, hold or restraint can move. -/
def Flight.Grounded (r : Flight) : Prop := r.state = .free ∨ r.state = .tripped

theorem afterHold_still (r : Flight) (cause : HoldCause) : (r.afterHold cause).Still := by
  cases state : r.state <;> simp [Flight.Still, Flight.afterHold, state]

theorem afterRestraint_still (r : Flight) (cause : HoldCause) : (r.afterRestraint cause).Still := by
  by_cases arming : r.state = .arming
  · rw [afterRestraint_arming arming]
    exact ⟨by simp, by simp⟩
  · rw [afterRestraint_hold arming]
    exact afterHold_still r cause

theorem afterTrip_grounded (r : Flight) (cause : TripCause) : (r.afterTrip cause).Grounded := by
  cases state : r.state <;> simp [Flight.Grounded, Flight.afterTrip, state]

theorem Flight.Grounded.afterRestraint {r : Flight} (h : r.Grounded) (cause : HoldCause) : r.afterRestraint cause = r := by
  rcases h with state | state <;> simp [Flight.afterRestraint, Flight.afterHold, state]

theorem recomputeEnable_still (h : (s.flight f).Still) : ((recomputeEnable u s).flight f).Still := by
  rcases (recomputeEnable_spec u s).flight f with same | ⟨-, -, -, restrained⟩
  · rwa [same]
  · rw [restrained]; exact afterRestraint_still _ _

theorem recomputeEnable_grounded (h : (s.flight f).Grounded) : (recomputeEnable u s).flight f = s.flight f := by
  rcases (recomputeEnable_spec u s).flight f with same | ⟨-, -, -, restrained⟩
  · exact same
  · rw [restrained, h.afterRestraint]

end

/-! ### The holds and trips of every flight beside one enable computed again -/

section
variable (i : LinkId) (u : Station) (f : FlightId) (s : State)

theorem holdAll_recompute_still :
    ((takeInAnyOrder (sends i .holdAll ++ [.recompute u]) takeEffect s).flight f).Still := by
  refine takeInAnyOrder_passes (a := .hold f (.holdAllLink i)) (before := fun _ => True)
    (behind := fun t => (t.flight f).Still) (sends_recompute_nodup i .holdAll u) ?_ (fun _ => trivial)
    (fun _ _ _ _ _ => trivial) (fun t _ => ?_) fun e listed other t still => ?_
  · simp [sends, mem_allFlights]
  · show ((holdFlight f _ t).flight f).Still
    rw [holdFlight_flight_same]
    exact afterHold_still _ _
  · simp only [sends, List.mem_append, List.mem_map, List.mem_singleton] at listed
    rcases listed with ⟨g, -, rfl⟩ | rfl
    · have apart : f ≠ g := by rintro rfl; exact other rfl
      show ((holdFlight g _ t).flight f).Still
      rwa [holdFlight_others g _ t f apart]
    · exact recomputeEnable_still still

theorem tripAll_recompute_grounded :
    ((takeInAnyOrder (sends i .tripAll ++ [.recompute u]) takeEffect s).flight f).Grounded := by
  refine takeInAnyOrder_passes (a := .trip f (.linkTrip i)) (before := fun _ => True)
    (behind := fun t => (t.flight f).Grounded) (sends_recompute_nodup i .tripAll u) ?_ (fun _ => trivial)
    (fun _ _ _ _ _ => trivial) (fun t _ => ?_) fun e listed other t grounded => ?_
  · simp [sends, mem_allFlights]
  · show ((tripFlight f _ t).flight f).Grounded
    rw [tripFlight_flight_same]
    exact afterTrip_grounded _ _
  · simp only [sends, List.mem_append, List.mem_map, List.mem_singleton] at listed
    rcases listed with ⟨g, -, rfl⟩ | rfl
    · have apart : f ≠ g := by rintro rfl; exact other rfl
      show ((tripFlight g _ t).flight f).Grounded
      rwa [tripFlight_others g _ t f apart]
    · show ((recomputeEnable u t).flight f).Grounded
      rwa [recomputeEnable_grounded grounded]

end

/-! ### The stations that an entry names -/

section
variable {i : LinkId} {l : Link} {u w : Station} {s : State}

theorem enableTarget_request (requests : l.Requests) : enableTarget (some l) = none := by
  rw [Option.eq_none_iff_forall_ne_some]
  intro v named
  obtain ⟨m, hm, enables⟩ := (enableTarget_iff _ _).mp named
  cases hm
  exact requests v enables

theorem enableTarget_enable (enables : l.action = .enableStation u) : enableTarget (some l) = some u :=
  (enableTarget_iff _ _).mpr ⟨l, rfl, enables⟩

theorem stationsNamed_perm {before after : Option Link} {named : List Station} (nodup : named.Nodup)
    (members : ∀ v, v ∈ named ↔ enableTarget before = some v ∨ enableTarget after = some v) :
    (stationsNamed before after).Perm named :=
  (List.perm_ext_iff_of_nodup (allStations_nodup.filter _) nodup).mpr fun v => mem_stationsNamed.trans (members v).symm

/-! ### An entry written, by what stood in it and by its action -/

/-- A cue's condition is an edge, which no level makes true (09, R163, R166). -/
theorem cue_untrue {f : FlightId} (cues : l.action = .cueFlight f) (allows : l.action.allows l.cond = true) : ¬l.ConditionTrue s := by
  rw [← holds_iff]
  obtain ⟨src, cond, act⟩ := l
  obtain rfl : act = .cueFlight f := cues
  cases cond
  case rise | fall | slackEdge => cases src <;> exact Bool.false_ne_true
  all_goals cases allows

section
variable (requests : l.Requests)
include requests

/-- A link that requests, written over an entry that enabled no station, acts alone. -/
theorem writeLink_request_true (unnamed : enableTarget (s.link i) = none) (cond : l.ConditionTrue s) :
    writeLink i l s = takeInAnyOrder (sends i l.action) takeEffect (s.setLink i (some l)) := by
  have named : stationsNamed (s.link i) (some l) = [] := (stationsNamed_perm List.nodup_nil fun v => by
    simp [unnamed, enableTarget_request requests]).eq_nil
  have holds : l.holds (s.setLink i (some l)) = true := (holds_iff l _).mpr cond
  simp only [writeLink, named, holds, if_true, List.map_nil, List.append_nil]

theorem writeLink_request_untrue (unnamed : enableTarget (s.link i) = none) (untrue : ¬l.ConditionTrue s) :
    writeLink i l s = s.setLink i (some l) := by
  have named : stationsNamed (s.link i) (some l) = [] := (stationsNamed_perm List.nodup_nil fun v => by
    simp [unnamed, enableTarget_request requests]).eq_nil
  have fails : ¬l.holds (s.setLink i (some l)) = true := mt (holds_iff l _).mp untrue
  simp only [writeLink, named, if_neg fails]
  rfl

/-- A link that requests, written over an entry that enabled a station, acts beside that enable computed again. -/
theorem writeLink_over (named : enableTarget (s.link i) = some u) :
    writeLink i l s = takeInAnyOrder ((if l.holds s = true then sends i l.action else []) ++ [.recompute u]) takeEffect
      (s.setLink i (some l)) := by
  have stations : stationsNamed (s.link i) (some l) = [u] := List.perm_singleton.mp
    (stationsNamed_perm (List.nodup_singleton u) fun v => by
      simp [named, enableTarget_request requests, eq_comm])
  simp only [writeLink, stations]
  rfl

theorem writeLink_over_true (named : enableTarget (s.link i) = some u) (cond : l.ConditionTrue s) :
    writeLink i l s = takeInAnyOrder (sends i l.action ++ [.recompute u]) takeEffect (s.setLink i (some l)) := by
  rw [writeLink_over requests named, if_pos ((holds_iff l s).mpr cond)]

theorem writeLink_over_untrue (named : enableTarget (s.link i) = some u) (untrue : ¬l.ConditionTrue s) :
    writeLink i l s = recomputeEnable u (s.setLink i (some l)) := by
  rw [writeLink_over requests named, if_neg (mt (holds_iff l s).mp untrue)]
  rfl

/-- One request beside the enable of the entry written over: either is taken first (log entry 19). -/
theorem writeLink_over_one {e : Effect} (named : enableTarget (s.link i) = some u) (cond : l.ConditionTrue s)
    (sent : sends i l.action = [e]) :
    let written := s.setLink i (some l)
    let chosen : State := { written with freeIndex := written.freeIndex + 1 }
    writeLink i l s = recomputeEnable u (takeEffect e chosen) ∨ writeLink i l s = takeEffect e (recomputeEnable u chosen) := by
  rw [writeLink_over_true requests named cond, sent]
  exact takeInAnyOrder_pair (.refl _) takeEffect _

/-- Whatever a link over an enabling entry sends, the enable of that entry is computed again and no other. -/
theorem writeLink_over_enables (named : enableTarget (s.link i) = some u) :
    (writeLink i l s).links = (s.setLink i (some l)).links ∧
      ((writeLink i l s).enables.get u = true ↔ EnableHolds u (s.setLink i (some l))) ∧
      ∀ w, w ≠ u → (writeLink i l s).enables.get w = s.enables.get w := by
  have members (v : Station) :
      Effect.recompute v ∈ (if l.holds s = true then sends i l.action else []) ++ [.recompute u] ↔ v = u := by
    split
    · exact recompute_mem_sends
    · simp
  have taken := takeInAnyOrder_taken ((if l.holds s = true then sends i l.action else []) ++ [.recompute u])
    (s.setLink i (some l))
  rw [← writeLink_over requests named] at taken
  refine ⟨taken.links.links, ?_, fun w other => ?_⟩
  · rw [taken.enables, if_pos ((members u).mpr rfl), enableOf_iff]
  · rw [taken.enables, if_neg (mt (members w).mp other)]
    rfl

end

/-- An ENABLE_STATION link, over an entry that enabled its own station or none. -/
theorem writeLink_enable (enables : l.action = .enableStation u)
    (named : enableTarget (s.link i) = none ∨ enableTarget (s.link i) = some u) :
    writeLink i l s = recomputeEnable u (s.setLink i (some l)) := by
  have stations : stationsNamed (s.link i) (some l) = [u] := List.perm_singleton.mp
    (stationsNamed_perm (List.nodup_singleton u) fun v => by
      rcases named with named | named <;> simp [named, enableTarget_enable enables, eq_comm])
  simp only [writeLink, stations, enables, sends, ite_self]
  rfl

/-- An ENABLE_STATION link over one of another station: either enable is computed first (log entry 19). -/
theorem writeLink_enableOver (enables : l.action = .enableStation w) (named : enableTarget (s.link i) = some u) (ne : w ≠ u) :
    let written := s.setLink i (some l)
    let chosen : State := { written with freeIndex := written.freeIndex + 1 }
    writeLink i l s = recomputeEnable w (recomputeEnable u chosen) ∨
      writeLink i l s = recomputeEnable u (recomputeEnable w chosen) := by
  have stations : (stationsNamed (s.link i) (some l)).Perm [u, w] := stationsNamed_perm (by simpa using ne.symm) fun v => by
    simp [named, enableTarget_enable enables, eq_comm]
  have effects := stations.map Effect.recompute
  simp only [writeLink, enables, sends, ite_self, List.nil_append]
  exact takeInAnyOrder_pair effects takeEffect _

end

/-! ### SET-LINK -/

section
variable {st : Station} {link source cond action target : Byte} {i : LinkId} {l : Link} {s : State}

theorem serveSetLink_refused (wrong : 24 ≤ link.toNat ∨
    ∀ l : Link, source = l.source.byte → cond = l.cond.byte → [action, target] = l.action.codes →
      l.cond.fits l.source = true → l.action.allows l.cond = false) :
    serveSetLink link source cond action target s = refuse s .badParameter := by
  rcases wrong with out | none
  · rw [serveSetLink, linkOf_none out]
  · have unspelled : linkFieldsOf source cond action target = .none := by
      rw [Option.eq_none_iff_forall_ne_some]
      intro l spelled
      obtain ⟨hsource, hcond, codes, fits, allows⟩ := linkFieldsOf_some spelled
      exact absurd allows (by simp [none l hsource hcond codes fits])
    rw [serveSetLink, unspelled]
    cases linkOf link <;> rfl

/-- A SET-LINK that R163 takes writes its entry, and nothing else but its reply follows. -/
theorem exec_setLink_taken (live : s.resetAsserted = false) (named : link.toNat = i.val) (hsource : source = l.source.byte)
    (hcond : cond = l.cond.byte) (codes : [action, target] = l.action.codes) (fits : l.cond.fits l.source = true)
    (allows : l.action.allows l.cond = true) :
    exec (.setLink st link source cond action target) s =
      .next (reply st kindSetLink .done (writeLink i l (markHeard st s))) := by
  refine exec_accepted (i := .setLink st link source cond action target) rfl live ?_
  show serveSetLink link source cond action target _ = _
  rw [serveSetLink, linkOf_some named, hsource, hcond, linkFieldsOf_codes l _ _ codes fits allows]

end

/-- Settles O53, by what stood in the entry and by the new link's action. -/
theorem setLinkWrites : Obligations.SetLinkWrites := by
  refine ⟨fun st link source cond action target s live wrong =>
    exec_refused (i := .setLink st link source cond action target) rfl live (serveSetLink_refused wrong), ?_, ?_⟩
  · intro st link source cond action target i l s live named hsource hcond codes fits allows noEnable written done
    have taken {r : State} (h : writeLink i l (markHeard st s) = r) : done r :=
      h ▸ exec_setLink_taken live named hsource hcond codes fits allows
    have unnamed : enableTarget ((markHeard st s).link i) = none := by
      rw [Option.eq_none_iff_forall_ne_some]
      intro u before
      obtain ⟨old, hold, enables⟩ := (enableTarget_iff _ _).mp before
      exact noEnable old u hold enables
    have acts {x : Action} (act : l.action = x) (requests : l.Requests) (meets : l.ConditionTrue s) :
        done (takeInAnyOrder (sends i x) takeEffect written) :=
      taken (act ▸ writeLink_request_true (s := markHeard st s) requests unnamed meets)
    have rests (requests : l.Requests) (untrue : ¬l.ConditionTrue s) : done written :=
      taken (writeLink_request_untrue (s := markHeard st s) requests unnamed untrue)
    split <;> rename_i act
    case h_6 u => exact ⟨_, taken (writeLink_enable act (.inl unnamed)), recomputeEnable_spec u written⟩
    all_goals have requests : l.Requests := fun u => by simp [act]
    case h_1 f | h_2 f => exact ⟨acts act requests, rests requests⟩
    case h_3 =>
      obtain ⟨flights, links⟩ := sends_holdAll i written
      exact ⟨fun meets => ⟨_, acts act requests meets, links, flights⟩, rests requests⟩
    case h_4 =>
      obtain ⟨flights, links⟩ := sends_tripAll i written
      exact ⟨fun meets => ⟨_, acts act requests meets, links, flights⟩, rests requests⟩
    case h_5 f => exact rests requests (cue_untrue act allows)
  · intro st link source cond action target i old l u s live named hsource hcond codes fits allows before enabled written chosen done
      computedAnd
    have taken {r : State} (h : writeLink i l (markHeard st s) = r) : done r :=
      h ▸ exec_setLink_taken live named hsource hcond codes fits allows
    have held : enableTarget ((markHeard st s).link i) = some u := (enableTarget_iff _ _).mpr ⟨old, before, enabled⟩
    have rests (requests : l.Requests) (untrue : ¬l.ConditionTrue s) : ∃ t, done t ∧ EnableComputed u written t :=
      ⟨_, taken (writeLink_over_untrue (s := markHeard st s) requests held untrue), recomputeEnable_spec u written⟩
    have acts (e : Effect) (requests : l.Requests) (sent : sends i l.action = [e]) (meets : l.ConditionTrue s) :
        computedAnd (takeEffect e) := by
      rcases writeLink_over_one (s := markHeard st s) requests held meets sent with first | last
      · exact ⟨_, _, taken first, .inr ⟨rfl, recomputeEnable_spec u _⟩⟩
      · exact ⟨_, _, taken last, .inl ⟨recomputeEnable_spec u _, rfl⟩⟩
    split <;> rename_i act
    case h_6 w =>
      refine ⟨?_, fun ne => ?_⟩
      · rintro rfl
        exact ⟨_, taken (writeLink_enable act (.inr held)), recomputeEnable_spec w written⟩
      · rcases writeLink_enableOver act held ne with first | last
        · exact ⟨_, _, taken first, .inl ⟨recomputeEnable_spec u _, recomputeEnable_spec w _⟩⟩
        · exact ⟨_, _, taken last, .inr ⟨recomputeEnable_spec w _, recomputeEnable_spec u _⟩⟩
    all_goals have requests : l.Requests := fun u => by simp [act]
    case h_1 f => exact ⟨acts (.hold f (.linkHold i)) requests (by rw [act]; rfl), rests requests⟩
    case h_2 f => exact ⟨acts (.trip f (.linkTrip i)) requests (by rw [act]; rfl), rests requests⟩
    case h_5 f => exact rests requests (cue_untrue act allows)
    all_goals
      obtain ⟨links, value, others⟩ := writeLink_over_enables (s := markHeard st s) requests held
      refine ⟨_, taken rfl, links, value, others, fun untrue => ?_, fun meets f => ?_⟩
      · rw [writeLink_over_untrue (s := markHeard st s) requests held untrue]
        exact recomputeEnable_spec u written
      rw [writeLink_over_true (s := markHeard st s) requests held meets, act]
    · exact holdAll_recompute_still i u f written
    · exact tripAll_recompute_grounded i u f written

end Sys2Proof.Machine
end

section
namespace Sys2Proof.Machine

/-! ## Enables computed again at the events of a source (06, R113 to R115; 08, R153; 09, R158 to R168) -/

/-! ### Links taken out of use (09, R164) -/

section
variable {i : LinkId} {u : Station} {s : State}

theorem clearEntry_unnamed (unnamed : enableTarget (s.link i) = none) : clearEntry i s = s.setLink i none := by
  rw [clearEntry, unnamed]

theorem clearEntry_named (named : enableTarget (s.link i) = some u) :
    clearEntry i s = recomputeEnable u (s.setLink i none) := by
  rw [clearEntry, named]

theorem exec_clearLink_taken {st : Station} {link : Byte} (live : s.resetAsserted = false) (named : link.toNat = i.val) :
    exec (.clearLink st link) s = .next (reply st kindClearLink .done (clearEntry i (markHeard st s))) := by
  refine exec_accepted (i := .clearLink st link) rfl live ?_
  show serveClearLink link _ = _
  rw [serveClearLink, linkOf_some named]

end

/-- CLEAR-LINK (09, R164; 06, R114). -/
theorem clearLink_computes (st : Station) (link : Byte) (s : State) (live : s.resetAsserted = false) :
    (24 ≤ link.toNat → exec (.clearLink st link) s = .next (answer st kindClearLink .badParameter s)) ∧
    ∀ i : LinkId, link.toNat = i.val →
      ((∀ l u, s.link i = some l → l.action ≠ .enableStation u) →
        exec (.clearLink st link) s = .next (reply st kindClearLink .done ((markHeard st s).setLink i none))) ∧
      ∀ l u, s.link i = some l → l.action = .enableStation u →
        ∃ t, exec (.clearLink st link) s = .next (reply st kindClearLink .done t) ∧
          EnableComputed u ((markHeard st s).setLink i none) t := by
  refine ⟨fun out => exec_refused (i := .clearLink st link) rfl live ?_, fun i named => ⟨fun noEnable => ?_, fun l u hl enables => ?_⟩⟩
  · show serveClearLink link _ = _
    rw [serveClearLink, linkOf_none out]
  · have unnamed : enableTarget ((markHeard st s).link i) = none := by
      rw [Option.eq_none_iff_forall_ne_some]
      intro u before
      obtain ⟨l, hl, enables⟩ := (enableTarget_iff _ _).mp before
      exact noEnable l u hl enables
    rw [exec_clearLink_taken live named, clearEntry_unnamed unnamed]
  · have held : enableTarget ((markHeard st s).link i) = some u := (enableTarget_iff _ _).mpr ⟨l, hl, enables⟩
    exact ⟨_, by rw [exec_clearLink_taken live named, clearEntry_named held], recomputeEnable_spec u _⟩

/-! ### An event of a source that enables one station -/

section
variable {src : Source} {i : LinkId} {l : Link} {u : Station} {s : State} {occurs : Condition → Bool}

/-- The links of a source that enable one station have that enable alone computed again (06, R114). -/
theorem enableEffects_one
    (one : ∀ v, (∃ j m, s.link j = some m ∧ m.source = src ∧ m.action = .enableStation v) ↔ v = u) :
    enableEffects s src = [.recompute u] := by
  have stations : (allStations.filter fun st =>
      s.anyLink fun l => decide (l.source = src) && decide (l.action = .enableStation st)) = [u] := by
    refine List.perm_singleton.mp ((List.perm_ext_iff_of_nodup (allStations_nodup.filter _) (List.nodup_singleton u)).mpr
      fun v => ?_)
    simp [mem_allStations, anyLink_iff, one]
  rw [enableEffects, stations]
  rfl

/-- At an event of a source whose only link enables a station, that enable is computed again where a level changed. -/
theorem sourceEvent_enable (sole : SoleLink i l s) (enables : l.action = .enableStation u) (recomputes : Bool) :
    sourceEvent l.source occurs recomputes s = if recomputes = true then recomputeEnable u s else s := by
  have one (v : Station) : (∃ j m, s.link j = some m ∧ m.source = l.source ∧ m.action = .enableStation v) ↔ v = u := by
    constructor
    · rintro ⟨j, m, hm, source, names⟩
      by_cases e : j = i
      · subst e
        cases sole.1.symm.trans hm
        cases enables.symm.trans names
        rfl
      · exact absurd source (sole.2 j m e hm)
    · rintro rfl
      exact ⟨i, l, sole.1, rfl, enables⟩
  rw [sourceEvent, linkSends_sole sole, enables, enableEffects_one one, sends, ite_self, List.nil_append]
  split <;> rfl

theorem sourceEvent_enable_computed (sole : SoleLink i l s) (enables : l.action = .enableStation u) (source : l.source = src) :
    EnableComputed u s (sourceEvent src occurs true s) := by
  rw [← source, sourceEvent_enable sole enables, if_pos rfl]
  exact recomputeEnable_spec u s

/-- Where one link alone acts at an event of a source, its sends are all that is sent. -/
theorem linkSends_alone (hi : s.link i = some l) (source : l.source = src) (acts : occurs l.cond = true)
    (others : ∀ j m, j ≠ i → s.link j = some m → m.source = src → occurs m.cond = false) :
    linkSends s src occurs = sends i l.action := by
  have acting : actingLinks s src occurs = [i] := by
    refine List.perm_singleton.mp ((List.perm_ext_iff_of_nodup (allLinks_nodup.filter _) (List.nodup_singleton i)).mpr fun j => ?_)
    simp only [List.mem_filter, mem_allLinks, true_and, List.mem_singleton]
    constructor
    · intro taken
      by_contra other
      cases hj : s.link j with
      | none => simp [hj] at taken
      | some m =>
        simp only [hj, Bool.and_eq_true, decide_eq_true_eq] at taken
        exact absurd taken.2 (by simp [others j m other hj taken.1])
    · rintro rfl
      simp [hi, source, acts]
  simp [linkSends, acting, hi]

end

/-! ### Lines (09, R158, R159, R161) -/

section
variable {n : LineId} {level old : Level} {s : State}

theorem updLine_updLine (g h : SenseLine → SenseLine) : (s.updLine n g).updLine n h = s.updLine n fun x => h (g x) := by
  have lines : updAt (updAt s.lines n g) n h = updAt s.lines n fun x => h (g x) := by
    apply vector_ext_fin
    intro m
    simp only [getElem_updAt]
    split <;> rfl
  exact congrArg (fun v => { s with lines := v }) lines

theorem exec_filterAccept_taken (live : s.resetAsserted = false) (on : (s.line n).filterOn = true)
    (settled : (s.line n).filtered = some old) (pending : (s.line n).pending = some level) :
    exec (.filterAccept n) s = .next (acceptChange n level s) := by
  show execFilterAccept n s = _
  simp [execFilterAccept, settled, pending, live, on]

/-- A raw change of a settled line whose filter is off is accepted at once (09, R159). -/
theorem exec_rawLevelChange_taken (live : s.resetAsserted = false) (off : (s.line n).filterOn = false)
    (settled : (s.line n).filtered = some old) (changes : old ≠ level) (moves : (s.line n).raw ≠ level) :
    exec (.rawLevelChange n level) s = .next (acceptChange n level (s.updLine n fun x => { x with raw := level })) := by
  have changed (x : State) (h : x = s.updLine n fun x => { x with raw := level }) :
      filterRaw n x = acceptChange n level x := by
    have line : x.line n = { s.line n with raw := level } := by rw [h, State.updLine_line_same]
    simp [filterRaw, takeRaw, line, off, settled, changes]
  show execRawLevelChange n level s = _
  rw [execRawLevelChange, rawChange, if_neg moves, live]
  exact congrArg _ (changed _ rfl)

theorem exec_lineSettle_taken (live : s.resetAsserted = false) (unsettled : (s.line n).filtered = none) :
    exec (.lineSettle n) s = .next (settleLine n s) := by
  show execLineSettle n s = _
  simp [execLineSettle, live, unsettled]

end

/-! ### Results (08, R145, R149 to R153) -/

section
variable {i : LinkId} {l : Link} {u : Station} {k : SlotId} {s t : State}

/-- A new result of a slot whose only link enables a station: the enable is computed again where a level changed. -/
theorem newResult_enable (sole : SoleLink i l s) (enables : l.action = .enableStation u) (source : l.source = .slot k)
    (raw : Nat) (origin : Origin) :
    let r := (s.slot k).withResult raw origin
    let base := raiseFresh k (s.updSlot k fun _ => r)
    let changes := r.isOver ≠ (s.slot k).isOver ∨ r.isUnder ≠ (s.slot k).isUnder
    (changes → EnableComputed u base (newResult k raw origin s)) ∧ (¬changes → newResult k raw origin s = base) := by
  intro r base changes
  have event (recomputes : Bool) : sourceEvent (.slot k) (resultOccurs (s.slot k) r) recomputes base =
      if recomputes = true then recomputeEnable u base else base :=
    source ▸ sourceEvent_enable (s := base) sole enables recomputes
  have changed : levelsChanged (s.slot k) r = true ↔ changes := levelsChanged_iff _ _
  refine ⟨fun h => ?_, fun h => (event _).trans (if_neg (mt changed.mp h))⟩
  have computed : newResult k raw origin s = recomputeEnable u base := (event _).trans (if_pos (changed.mpr h))
  rw [computed]
  exact recomputeEnable_spec u base

/-- What computing an enable again does is the same whatever the scanner does beside it. -/
theorem EnableComputed.scanned (h : EnableComputed u s t) (mode : ScanMode) (state : ScanState) :
    EnableComputed u { s with scanMode := mode, scanState := state } { t with scanMode := mode, scanState := state } := by
  have scan {v w : State} (e : v = w) :
      { v with scanMode := mode, scanState := state } = { w with scanMode := mode, scanState := state } := by rw [e]
  refine ⟨h.value, h.others, h.links, fun before after => ?_, fun same => scan (h.kept same)⟩
  obtain ⟨flights, aborted, axes, ports, rest⟩ := h.lost before after
  exact ⟨flights, aborted, axes, ports, scan rest⟩

/-- A conversion that ends moves the scanner and nothing else. -/
theorem nextConversion_frame (k : SlotId) (s : State) :
    nextConversion k s = { s with scanMode := (nextConversion k s).scanMode, scanState := (nextConversion k s).scanState } := by
  unfold nextConversion
  repeat' split
  · rfl
  all_goals exact endScan_frame s

theorem exec_conversionComplete_taken {raw : BitVec 12} (live : s.resetAsserted = false) (converting : s.scanState = .scanning k) :
    exec (.conversionComplete raw) s = .next (nextConversion k (newResult k raw.toNat .converted s)) := by
  show execConversionComplete raw s = _
  simp [execConversionComplete, converting, live]

theorem exec_inject_taken {st : Station} {slot : Byte} {raw : Half} (live : s.resetAsserted = false) (named : slot.toNat = k.val)
    (stopped : s.scanState = .stopped) :
    exec (.inject st slot raw) s =
      .next (reply st kindInject .done (newResult k (min raw.toNat 4095) .injected (markHeard st s))) := by
  refine exec_accepted (i := .inject st slot raw) rfl live ?_
  have names : slotOf slot = some k := by simp [slotOf, named]
  show serveInject slot raw _ = _
  rw [serveInject, names]
  exact if_pos stopped

end

/-! ### An e-stop line that falls (09, section 9.3) -/

/-- From s to t, while a flight's trip is still to come: the flight is as it was, or it has met the loss of its station's enable. -/
structure BeforeTrip (u : Station) (f : FlightId) (s t : State) : Prop where
  links : LinksKept s t
  enabled : t.enables.get u = true → s.enables.get u = true ∧ t.flight f = s.flight f
  flight : t.flight f = s.flight f ∨
    (s.flight f).claim = some u ∧ s.enables.get u = true ∧ t.flight f = (s.flight f).afterRestraint .enableLost

/-- What a flight is once its trip has come, behind the loss of its station's enable or not. -/
def TripMet (u : Station) (f : FlightId) (cause : TripCause) (s : State) (r : Flight) : Prop :=
  r = (s.flight f).afterTrip cause ∨
    (s.flight f).claim = some u ∧ s.enables.get u = true ∧ r = ((s.flight f).afterRestraint .enableLost).afterTrip cause

section
variable {u : Station} {f g : FlightId} {cause : TripCause} {s t : State}

theorem BeforeTrip.otherTrip (h : BeforeTrip u f s t) (apart : f ≠ g) : BeforeTrip u f s (tripFlight g cause t) := by
  have aside := tripFlight_aside g cause t
  have same := tripFlight_others g cause t f apart
  exact ⟨h.links.trans aside.links, by rw [aside.enables, same]; exact h.enabled, by rw [same]; exact h.flight⟩

/-- Computing the enable again while its links give it false restrains the flight or leaves it. -/
theorem BeforeTrip.recompute (h : BeforeTrip u f s t) (off : enableOf s u = false) : BeforeTrip u f s (recomputeEnable u t) := by
  have disabled : (recomputeEnable u t).enables.get u = false := by
    rw [recomputeEnable_get, if_pos rfl, h.links.enableOf, off]
  refine ⟨h.links.trans (recomputeEnable_books u t).2, by simp [disabled], ?_⟩
  rcases (recomputeEnable_spec u t).flight f with same | ⟨claim, enabled, -, restrained⟩
  · rw [same]
    exact h.flight
  · obtain ⟨was, same⟩ := h.enabled enabled
    rw [restrained, same]
    exact .inr ⟨same ▸ claim, was, rfl⟩

theorem BeforeTrip.trip (h : BeforeTrip u f s t) : TripMet u f cause s ((tripFlight f cause t).flight f) := by
  rw [tripFlight_flight_same]
  rcases h.flight with same | ⟨claim, enabled, restrained⟩
  · exact .inl (by rw [same])
  · exact .inr ⟨claim, enabled, by rw [restrained]⟩

theorem TripMet.grounded {r : Flight} (h : TripMet u f cause s r) : r.Grounded := by
  rcases h with e | ⟨-, -, e⟩ <;> rw [e] <;> exact afterTrip_grounded _ _

/-- Six trips beside an enable whose links give it false: each flight meets its trip, before or after the enable loss. -/
theorem tripAll_recompute_met (i : LinkId) (f : FlightId) (off : enableOf s u = false) :
    TripMet u f (.linkTrip i) s
      ((takeInAnyOrder (sends i .tripAll ++ [.recompute u]) takeEffect s).flight f) := by
  refine takeInAnyOrder_passes (a := .trip f (.linkTrip i)) (before := BeforeTrip u f s)
    (behind := fun t => TripMet u f (.linkTrip i) s (t.flight f)) (sends_recompute_nodup i .tripAll u) ?_
    (fun k => ⟨(freeIndex_aside k s).links, fun enabled => ⟨enabled, rfl⟩, .inl rfl⟩)
    (fun e listed other t h => ?_) (fun t h => h.trip) fun e listed other t met => ?_
  · simp [sends, mem_allFlights]
  all_goals
    simp only [sends, List.mem_append, List.mem_map, List.mem_singleton] at listed
    rcases listed with ⟨g, -, rfl⟩ | rfl
  · exact h.otherTrip (by rintro rfl; exact other rfl)
  · exact h.recompute off
  · have apart : f ≠ g := by rintro rfl; exact other rfl
    show TripMet u f _ s ((tripFlight g _ t).flight f)
    rwa [tripFlight_others g _ t f apart]
  · show TripMet u f _ s ((recomputeEnable u t).flight f)
    rwa [recomputeEnable_grounded met.grounded]

end

section
variable {n : LineId} {i j : LinkId} {u : Station} {s : State}

/-- An e-stop line accepted LOW, with its TRIP_ALL link and the link by which it enables a station: the effects of the two. -/
theorem acceptChange_estop (ne : i ≠ j) (trips : s.link i = some { source := .line n, cond := .low, action := .tripAll })
    (enables : s.link j = some { source := .line n, cond := .high, action := .enableStation u })
    (alone : ∀ k l, k ≠ i → k ≠ j → s.link k = some l → l.source ≠ .line n) :
    acceptChange n .low s = takeInAnyOrder (sends i .tripAll ++ [.recompute u]) takeEffect
      (raiseLineChange n (s.updLine n fun x => { x with filtered := some .low, pending := none })) := by
  have sent : linkSends (raiseLineChange n (s.updLine n fun x => { x with filtered := some .low, pending := none })) (.line n)
      (changeOccurs .low) = sends i .tripAll := by
    refine linkSends_alone trips rfl rfl fun k l other hk source => ?_
    by_cases kj : k = j
    · subst kj
      cases hk.symm.trans enables
      rfl
    · exact absurd source (alone k l other kj hk)
  rw [acceptChange, sourceEvent, sent, if_pos rfl, enableEffects_one]
  intro v
  constructor
  · rintro ⟨k, l, hk, source, names⟩
    by_cases ki : k = i
    · subst ki
      cases hk.symm.trans trips
      cases names
    by_cases kj : k = j
    · subst kj
      cases hk.symm.trans enables
      cases names
      rfl
    · exact absurd source (alone k l ki kj hk)
  · rintro rfl
    exact ⟨j, _, enables, rfl, rfl⟩

/-- The station that a line enables at HIGH has no enable once the line is LOW. -/
theorem enableOf_low (enables : s.link j = some { source := .line n, cond := .high, action := .enableStation u })
    (low : (s.line n).filtered = some .low) : enableOf s u = false := by
  rw [← Bool.not_eq_true, enableOf_iff]
  rintro ⟨-, all⟩
  have high := all j _ enables rfl
  rw [← holds_iff] at high
  simp [Link.holds, levelHolds, low] at high

end

/-- Settles O55: CLEAR-LINK, the events of a source with one enabling link, and the e-stop line. -/
theorem enablesComputedAgain : Obligations.EnablesComputedAgain := by
  refine ⟨clearLink_computes, ?_, ?_⟩
  · intro i l u s live sole enables
    refine ⟨fun n old level source on settled pending => ?_, fun n old level source off settled changes moves => ?_,
      fun n source unsettled => ?_, fun k source => ⟨fun st slot raw named stopped => ?_, fun raw converting => ?_⟩⟩
    · exact ⟨_, exec_filterAccept_taken live on settled pending,
        sourceEvent_enable_computed (i := i) (l := l) sole enables source⟩
    · refine ⟨_, exec_rawLevelChange_taken live off settled changes moves, ?_⟩
      rw [acceptChange, updLine_updLine]
      exact sourceEvent_enable_computed (i := i) (l := l) sole enables source
    · exact ⟨_, exec_lineSettle_taken live unsettled, sourceEvent_enable_computed (i := i) (l := l) sole enables source⟩
    · exact ⟨_, exec_inject_taken live named stopped, newResult_enable (s := markHeard st s) sole enables source _ _⟩
    · obtain ⟨changed, same⟩ := newResult_enable sole enables source raw.toNat .converted
      refine ⟨_, exec_conversionComplete_taken live converting, fun h => ?_, fun h => ?_⟩
      · rw [nextConversion_frame]
        exact (changed h).scanned _ _
      · have base := same h
        generalize newResult k raw.toNat .converted s = q at base ⊢
        subst base
        exact nextConversion_frame k _
  · intro n i j u s live on settled pending ne trips enables alone
    have low : ((s.updLine n fun x => { x with filtered := some .low, pending := none }).line n).filtered = some .low := by
      rw [State.updLine_line_same]
    have off := enableOf_low (s := raiseLineChange n (s.updLine n fun x => { x with filtered := some .low, pending := none }))
      enables low
    have taken := takeInAnyOrder_taken (sends i .tripAll ++ [.recompute u])
      (raiseLineChange n (s.updLine n fun x => { x with filtered := some .low, pending := none }))
    rw [← acceptChange_estop ne trips enables alone] at taken
    refine ⟨_, exec_filterAccept_taken live on settled pending, ?_, fun w other => ?_, taken.links.links, ?_, fun f => ?_⟩
    · rw [taken.enables, if_pos (recompute_mem_sends.mpr rfl), off]
    · rw [taken.enables, if_neg (mt recompute_mem_sends.mp other)]
      rfl
    · exact of_decide_eq_true ((taken.links.levels (.line n) .low).trans (decide_eq_true low))
    · rw [acceptChange_estop ne trips enables alone]
      exact tripAll_recompute_met i f off

end Sys2Proof.Machine
end

section
namespace Sys2Proof.Machine

/-! ## Exchanges written, missed and discarded (07, R125 to R138) -/

section
variable {s : State} {x : Turn} {e : Exchange}

/-! ### The bytes of an exchange (07, R126 to R128) -/

/-- The two flags of a control byte share no bit, so their sum is the byte. -/
theorem controlByte_eq_add (release ack : Bool) :
    controlByte release ack = (if release then 0x80 else 0) + (if ack then 0x40 else 0) := by
  cases release <;> cases ack <;> rfl

/-- The due exchange begins with its bytes formed from the state at that moment. -/
theorem exec_exchangeStart_due {p : AxisParams} (live : s.resetAsserted = false) (idle : s.exchange = none)
    (due : s.turn = some x) (params : (s.axis x.axis).params = some p) :
    exec .exchangeStart s = .next { s with exchange := some (formExchange x p s) } := by
  show execExchangeStart s = _
  simp [execExchangeStart, idle, due, params, live]

/-- A write carries its set-point at bytes 1 to 4 and its brake release in bit 7 of byte 5. -/
theorem carried_of_bytes {first control check : Byte} {setPoint : Word}
    (bytes : e.bytes = first :: wordBytes setPoint ++ [control, check]) :
    carried e = { setPoint := setPoint.toInt, release := control.getLsbD 7 } := by
  have word : wordAt e.bytes 1 = setPoint := by
    rw [bytes]
    exact (wordAt_append [first] _ 0).trans (wordAt_wordBytes setPoint _)
  have byte : byteAt e.bytes 5 = control := by
    rw [bytes]
    exact byteAt_append (first :: wordBytes setPoint) [control, check] 0
  rw [carried, word, byte]

theorem exec_writeComplete_running (live : s.resetAsserted = false) (running : s.exchange = some e) (kind : e.kind = .write) :
    exec .writeComplete s = .next (writeEnds e s) := by
  show execWriteComplete s = _
  simp [execWriteComplete, running, live, kind]

/-! ### The commands that miss an exchange (07, R129, R131, R132) -/

theorem exec_heldLine_due (live : s.resetAsserted = false) (idle : s.exchange = none) (due : s.turn = some x) :
    exec .heldLine s = .next (passTurn x (countMiss x.axis x.kind s)) := by
  show execHeldLine s = _
  simp [execHeldLine, idle, due, live]

theorem exec_missedExchange_running (live : s.resetAsserted = false) (running : s.exchange = some e) :
    exec .missedExchange s = .next (missExchange e s) := by
  show execMissedExchange s = _
  simp [execMissedExchange, running, live]

theorem exec_answerHoldTimeout_running (live : s.resetAsserted = false) (running : s.exchange = some e) (kind : e.kind = .read) :
    exec .answerHoldTimeout s = .next (missExchange e s) := by
  show execAnswerHoldTimeout s = _
  simp [execAnswerHoldTimeout, running, live, kind]

theorem exec_readComplete_running {position : Word} {status check : Byte} (live : s.resetAsserted = false)
    (running : s.exchange = some e) (kind : e.kind = .read) :
    exec (.readComplete position status check) s = .next (readArrives e position status check s) := by
  show execReadComplete position status check s = _
  simp [execReadComplete, running, live, kind]

/-- A read whose check fails is a missed exchange. -/
theorem readArrives_unchecked {position : Word} {status check : Byte} (fails : check ≠ ~~~ (wordBytes position ++ [status]).sum) :
    readArrives e position status check s = missExchange e s :=
  if_neg (by rwa [checkByte_eq])

theorem missExchange_kept (kept : e.discarded = false) :
    missExchange e s = passTurn e.turn (countMiss e.turn.axis e.turn.kind s) := by
  simp [missExchange, kept, Exchange.turn]

/-- The command misses the exchange whose turn it is: the due one on a held line, else the one in progress. -/
def MissesTurn (c : Instr) (x : Turn) (s : State) : Prop :=
  (c = .heldLine ∧ s.exchange = none ∧ s.turn = some x) ∨
    ∃ e, s.exchange = some e ∧ e.turn = x ∧ e.discarded = false ∧
      (c = .missedExchange ∨ (c = .answerHoldTimeout ∧ x.kind = .read) ∨
        ∃ position status check, c = .readComplete position status check ∧ x.kind = .read ∧
          check ≠ ~~~ (wordBytes position ++ [status]).sum)

/-- Whatever the command, a miss is counted against the axis and passes the turn on. -/
theorem exec_of_missesTurn {c : Instr} (live : s.resetAsserted = false) (h : MissesTurn c x s) :
    exec c s = .next (passTurn x (countMiss x.axis x.kind s)) := by
  obtain ⟨rfl, idle, due⟩ | ⟨e, running, rfl, kept, miss⟩ := h
  · exact exec_heldLine_due live idle due
  rw [← missExchange_kept kept]
  obtain rfl | ⟨rfl, kind⟩ | ⟨position, status, check, rfl, kind, fails⟩ := miss
  · exact exec_missedExchange_running live running
  · exact exec_answerHoldTimeout_running live running kind
  · rw [exec_readComplete_running live running kind, readArrives_unchecked fails]

/-! ### Discarded exchanges (07, R125) -/

theorem missExchange_discarded (discarded : e.discarded = true) : missExchange e s = passTurn e.turn s := by
  simp [missExchange, discarded]

theorem writeEnds_discarded (discarded : e.discarded = true) : writeEnds e s = passTurn e.turn s := by
  simp [writeEnds, discarded]

/-- A discarded read is not judged, whether its check holds or fails. -/
theorem readArrives_discarded (discarded : e.discarded = true) (position : Word) (status check : Byte) :
    readArrives e position status check s = passTurn e.turn s := by
  simp only [readArrives, discarded, if_true, missExchange_discarded discarded, ite_self]

/-- A discarded exchange that completes or misses passes the turn on, and that is all. -/
theorem exec_discarded {c : Instr} (live : s.resetAsserted = false) (running : s.exchange = some e) (discarded : e.discarded = true)
    (h : c = .missedExchange ∨ (c = .writeComplete ∧ e.kind = .write) ∨ (c = .answerHoldTimeout ∧ e.kind = .read) ∨
      ∃ position status check, c = .readComplete position status check ∧ e.kind = .read) :
    exec c s = .next (passTurn e.turn s) := by
  obtain rfl | ⟨rfl, kind⟩ | ⟨rfl, kind⟩ | ⟨position, status, check, rfl, kind⟩ := h
  · rw [exec_missedExchange_running live running, missExchange_discarded discarded]
  · rw [exec_writeComplete_running live running kind, writeEnds_discarded discarded]
  · rw [exec_answerHoldTimeout_running live running kind, missExchange_discarded discarded]
  · rw [exec_readComplete_running live running kind, readArrives_discarded discarded]

/-! ### The count of a miss (07, R133 to R135) -/

/-- A miss faults an axis that can fault where its missed streak, or at a write its write streak, comes to 3 (07, R133, R134). -/
def Axis.faultsAtMiss (a : Axis) (kind : ExchangeKind) : Prop :=
  (a.state = .braked ∨ a.state = .releasing ∨ a.state = .following) ∧
    (missedStreakAfter a = 3 ∨ (kind = .write ∧ writeStreakAfter a kind = 3))

theorem countMiss_faults {n : AxisId} {kind : ExchangeKind} (faults : (s.axis n).faultsAtMiss kind) :
    countMiss n kind s = faultAxis n .driveSilent (s.updAxis n fun a => a.missed kind) := by
  obtain ⟨-, e⟩ | ⟨calm, -⟩ := countMiss_cases n kind s
  · exact e
  · exact absurd faults.2 calm

/-- A streak of 3 has no effect on an UNCONFIGURED axis and on one already FAULTED. -/
theorem countMiss_calm {n : AxisId} {kind : ExchangeKind} (calm : ¬(s.axis n).faultsAtMiss kind) :
    countMiss n kind s = s.updAxis n fun a => a.missed kind := by
  obtain ⟨due, e⟩ | ⟨-, e⟩ := countMiss_cases n kind s
  · have idle : (s.axis n).state = .unconfigured ∨ (s.axis n).state = .faulted := by
      have dead := fun live => calm ⟨live, due⟩
      cases state : (s.axis n).state <;> simp [state] at dead ⊢
    rw [e, faultAxis_idle]
    rw [State.updAxis_axis_same]
    exact idle
  · exact e

theorem countMiss_roundKept (n : AxisId) (kind : ExchangeKind) (s : State) : RoundKept s (countMiss n kind s) := by
  have counted : RoundKept s (s.updAxis n fun a => a.missed kind) := by
    refine ⟨fun m => ?_, rfl, rfl⟩
    rw [State.updAxis_axis]
    split <;> exact .rfl
  obtain ⟨-, e⟩ | ⟨-, e⟩ := countMiss_cases n kind s <;> rw [e]
  · exact counted.trans (faultAxis_roundKept _ _ _)
  · exact counted

/-- What a miss that brings a streak to 3 makes of the axis, its lines and the flights (07, R135; 01, R3; 04, R76). -/
theorem countMiss_faulted {n : AxisId} {kind : ExchangeKind} (faults : (s.axis n).faultsAtMiss kind) :
    (countMiss n kind s).axis n = ((s.axis n).missed kind).faulted .driveSilent ∧
      (countMiss n kind s).brake n = false ∧ (countMiss n kind s).faultLine = true ∧
      ∀ f, (countMiss n kind s).flight f =
        if (s.axis n).flight = some f then (s.flight f).afterTrip (.axisFault .driveSilent n) else s.flight f := by
  have own : (s.updAxis n fun a => a.missed kind).axis n = (s.axis n).missed kind := State.updAxis_axis_same _ _ _
  have live : ((s.updAxis n fun a => a.missed kind).axis n).state = .braked ∨
      ((s.updAxis n fun a => a.missed kind).axis n).state = .releasing ∨
      ((s.updAxis n fun a => a.missed kind).axis n).state = .following := by
    rw [own]; exact faults.1
  obtain ⟨brake, line⟩ := faultAxis_lines (cause := .driveSilent) live
  rw [countMiss_faults faults]
  refine ⟨?_, brake, line, fun f => ?_⟩
  · rw [(faultAxis_axes live).1, own]
  · rw [faultAxis_flights live, own]; rfl

end

/-! ### The two statements -/

/-- Settles O48. -/
theorem writesOnTheBus : Obligations.WritesOnTheBus := by
  refine ⟨fun x p s live idle due params => ?_,
    fun n address setPoint control first check discarded s live running => ?_⟩
  · rw [exec_exchangeStart_due live idle due params]
    obtain ⟨axis, kind⟩ := x
    cases kind <;>
      simp only [formExchange, writePayload, intWord, controlByte_eq_add, checkByte_eq, addressByte, decide_eq_true_eq]
  · rw [exec_writeComplete_running live running rfl, writeEnds, carried_of_bytes rfl]
    rfl

/-- Settles O49: a miss that faults its axis, one that only counts, and the discarded exchange. -/
theorem missesCount : Obligations.MissesCount := by
  refine ⟨?_, fun c e s live running discarded h => ?_⟩
  · intro c x s live misses a faults counted
    refine ⟨_, exec_of_missesTurn live misses, (passTurn_passed x _).of_kept (countMiss_roundKept _ _ s), fun silent => ?_,
      fun calm => ?_, fun f => ?_⟩
    · obtain ⟨axis, brake, line, -⟩ := countMiss_faulted silent
      refine ⟨(passTurn_axis _ _ _).trans axis, ?_⟩
      rw [passTurn_frame]
      exact ⟨brake, line⟩
    · rw [countMiss_calm calm]
      refine ⟨(passTurn_axis _ _ _).trans (State.updAxis_axis_same _ _ _), fun m other => ?_, ?_⟩
      · rw [passTurn_axis, State.updAxis_axis, if_neg other]
      · rw [passTurn_frame]
        exact ⟨rfl, rfl, rfl, rfl, rfl⟩
    · rw [passTurn_flight]
      by_cases silent : faults
      · obtain ⟨-, -, -, flights⟩ := countMiss_faulted silent
        simp [flights, silent, a]
      · rw [countMiss_calm silent, if_neg fun h => silent h.1]
        rfl
  · exact ⟨_, exec_discarded live running discarded h, passTurn_passed _ _, passTurn_frame _ _⟩

end Sys2Proof.Machine
end

section
namespace Sys2Proof.Machine

/-! ## The tension scanner (08, R144 to R155) -/

/-! ### The settings of a slot (08, R154) -/

section
variable {input enabled : Byte} {tare high low slack h : Half} {old : Slot} {lc : Fin 8}

theorem tensionOf_iff {x : Int} : tensionOf h = some x ↔ h.toInt = x ∧ -4095 ≤ h.toInt ∧ h.toInt ≤ 4095 := by
  constructor
  · intro taken
    by_cases out : h.toInt < -4095 ∨ 4095 < h.toInt
    · rw [tensionOf_none out] at taken; cases taken
    · rw [tensionOf_some (by omega) (by omega)] at taken
      exact ⟨Option.some.inj taken, by omega, by omega⟩
  · rintro ⟨rfl, lo, hi⟩
    exact tensionOf_some lo hi

/-- A SET-SLOT whose fields are all in their ranges is taken. -/
theorem slotSettingsOf_some (named : input.toNat = lc.val) (flag : enabled.toNat < 2) (weight : tare.toNat ≤ 4095)
    (highest : -4095 ≤ high.toInt ∧ high.toInt ≤ 4095) (lowest : -4095 ≤ low.toInt ∧ low.toInt ≤ 4095)
    (slackest : -4095 ≤ slack.toInt ∧ slack.toInt ≤ 4095) (order : low.toInt ≤ high.toInt) :
    slotSettingsOf input enabled tare high low slack old =
      some { old with input := lc, enabled := decide (enabled = 1), tare := tare.toNat, high := high.toInt, low := low.toInt
                      slack := slack.toInt } := by
  unfold slotSettingsOf
  rw [inputOf_some named, flagOf_some flag, tensionOf_iff.mpr ⟨rfl, highest⟩, tensionOf_iff.mpr ⟨rfl, lowest⟩,
    tensionOf_iff.mpr ⟨rfl, slackest⟩]
  exact if_pos ⟨weight, order⟩

/-- A SET-SLOT with a field out of its range is refused. -/
theorem slotSettingsOf_none (out : 8 ≤ input.toNat ∨ 2 ≤ enabled.toNat ∨ 4095 < tare.toNat ∨ high.toInt < -4095 ∨
      4095 < high.toInt ∨ low.toInt < -4095 ∨ 4095 < low.toInt ∨ slack.toInt < -4095 ∨ 4095 < slack.toInt ∨
      high.toInt < low.toInt) :
    slotSettingsOf input enabled tare high low slack old = none := by
  unfold slotSettingsOf
  split
  · rename_i lc en hi lo sl named flag highest lowest slackest
    rw [tensionOf_iff] at highest lowest slackest
    obtain ⟨rfl, highest⟩ := highest
    obtain ⟨rfl, lowest⟩ := lowest
    have known : ¬8 ≤ input.toNat := fun far => by rw [inputOf_none far] at named; cases named
    have boolean : ¬2 ≤ enabled.toNat := fun far => by rw [flagOf_none far] at flag; cases flag
    exact if_neg fun fits => by
      have weight : tare.toNat ≤ 4095 := fits.1
      omega
  · rfl

end

/-! ### Scans, and the requests SET-SLOT and SCAN (08, R144, R146, R147, R154) -/

section
variable {k : SlotId} {s : State}

/-- The scanner put in a mode and a state. -/
def setScan (mode : ScanMode) (scan : ScanState) (s : State) : State := { s with scanMode := mode, scanState := scan }

/-- A scan that begins outside STEP converts slot 0, or is empty and ends in STOPPED (08, R146). -/
theorem beginScan_freely (free : s.scanMode ≠ .step) :
    beginScan s = if (s.slot 0).enabled then setScan s.scanMode (.scanning 0) s else setScan .stopped .stopped s := by
  unfold beginScan
  split
  · rfl
  · split
    · exact absurd ‹_› free
    all_goals rfl

/-- SET-SLOT with every field in its range: taken while the scanner is STOPPED, and SCANNER_RUNNING elsewhere. -/
theorem serveSetSlot_ranged {slot input enabled : Byte} {tare high low slack : Half} {r : Slot} (named : slot.toNat = k.val)
    (settings : slotSettingsOf input enabled tare high low slack (s.slot k) = some r) :
    serveSetSlot slot input enabled tare high low slack s =
      if s.scanState = .stopped then accept (s.updSlot k fun _ => r) else refuse s .scannerRunning := by
  simp only [serveSetSlot, slotOf_some named, settings]

/-- SET-SLOT with a field out of its range is BAD_PARAMETER. -/
theorem serveSetSlot_unranged {slot input enabled : Byte} {tare high low slack : Half}
    (out : 8 ≤ slot.toNat ∨ ∀ old, slotSettingsOf input enabled tare high low slack old = none) :
    serveSetSlot slot input enabled tare high low slack s = refuse s .badParameter := by
  unfold serveSetSlot
  rcases out with far | none
  · rw [slotOf_none far]
  · simp only [none]
    split <;> rfl

/-- SCAN of a known mode starts it. -/
theorem serveScan_known {code : Byte} {mode : ScanMode} (known : scanModeOf code = some mode) :
    serveScan code s = accept (startScan mode s) := by
  rw [serveScan, known]

end

/-- Settles O51: SET-SLOT by its two checks, SCAN mode by mode. -/
theorem scannerSettings : Obligations.ScannerSettings := by
  refine ⟨fun st slot input enabled tare high low slack s live => ?_, fun st mode s live => ?_⟩
  · have refused {code : ResultCode} :=
      exec_refused (i := .setSlot st slot input enabled tare high low slack) (code := code) rfl live
    have accepted {u : State} := exec_accepted (i := .setSlot st slot input enabled tare high low slack) (u := u) rfl live
    split
    · rename_i out
      exact refused (serveSetSlot_unranged (out.imp_right fun out _ => slotSettingsOf_none out))
    · rename_i fits
      push Not at fits
      obtain ⟨near, known, flag, weight, h1, h2, l1, l2, s1, s2, order⟩ := fits
      have served := serveSetSlot_ranged (s := markHeard st s) (k := ⟨slot.toNat, near⟩) rfl
        (slotSettingsOf_some (lc := ⟨input.toNat, known⟩) rfl flag weight ⟨h1, h2⟩ ⟨l1, l2⟩ ⟨s1, s2⟩ order)
      split <;> rename_i stopped
      · exact refused (served.trans (if_neg stopped))
      · exact ⟨_, _, rfl, rfl, accepted (served.trans (if_pos (not_not.mp stopped)))⟩
  · have started {m : ScanMode} (known : scanModeOf mode = some m) :
        exec (.scan st mode) s = .next (reply st kindScan .done (startScan m (markHeard st s))) :=
      exec_accepted (i := .scan st mode) rfl live (serveScan_known known)
    have begun {m : ScanMode} (known : scanModeOf mode = some m) (free : m ≠ .step)
        (begins : startScan m (markHeard st s) = beginScan (setScan m s.scanState (markHeard st s))) :
        exec (.scan st mode) s = .next (if (s.slot 0).enabled then
          reply st kindScan .done (setScan m (.scanning 0) (markHeard st s))
          else reply st kindScan .done (setScan .stopped .stopped (markHeard st s))) := by
      rw [started known, begins, beginScan_freely free]
      exact congrArg Host.Outcome.next (apply_ite (reply st kindScan .done) _ _ _)
    split <;> rename_i code
    · exact started (m := .stopped) (by simp [scanModeOf, code])
    · exact begun (by simp [scanModeOf, code]) (by decide) rfl
    · exact begun (by simp [scanModeOf, code]) (by decide) rfl
    · exact started (m := .step) (by simp [scanModeOf, code])
    · have unknown : scanModeOf mode = none := by
        unfold scanModeOf
        split <;> simp_all
      refine exec_refused (i := .scan st mode) rfl live ?_
      show serveScan mode (markHeard st s) = _
      rw [serveScan, unknown]

end Sys2Proof.Machine
end

section
namespace Sys2Proof.Machine

/-! ## The one link on a source at its event (09, R165, R166) -/

/-! ### Holds and trips of all flights in a free order -/

theorem takeInAnyOrder_map {α β : Type} (g : α → β) (l : List α) (act : β → State → State) (s : State) :
    takeInAnyOrder (l.map g) act s = takeInAnyOrder l (fun a => act (g a)) s := by
  simp only [takeInAnyOrder, List.length_map, anyOrder_map, List.foldl_map]

section
variable (s : State)

theorem anyOrder_allFlights (ix : Nat) :
    (anyOrder allFlights.length allFlights ix).Nodup ∧ ∀ f, f ∈ anyOrder allFlights.length allFlights ix :=
  have every := anyOrder_perm allFlights.length allFlights ix
  ⟨every.nodup_iff.mpr allFlights_nodup, fun f => every.mem_iff.mpr (mem_allFlights f)⟩

theorem holds_everyHeld (cause : HoldCause) :
    EveryFlightHeld cause s (takeInAnyOrder allFlights (fun f => holdFlight f cause) s) := by
  obtain ⟨nodup, all⟩ := anyOrder_allFlights s.freeIndex
  obtain ⟨flights, motion, axes⟩ := holdList cause _ nodup { s with freeIndex := s.freeIndex + 5 }
  obtain ⟨driven, kept⟩ := holdList_outputs cause _ nodup { s with freeIndex := s.freeIndex + 5 }
  have ports := holdList_ports cause _ nodup { s with freeIndex := s.freeIndex + 5 }
  simp only [all, decide_true, Bool.true_and, true_and, if_true] at flights driven kept ports
  refine ⟨flights, axes, ports, ?_, motion.freeIndex ▸ motion⟩
  split
  · exact driven ‹_›
  · exact (kept ‹_›).outputs

theorem trips_everyTripped (cause : TripCause) :
    EveryFlightTripped cause s (takeInAnyOrder allFlights (fun f => tripFlight f cause) s) := by
  obtain ⟨nodup, all⟩ := anyOrder_allFlights s.freeIndex
  obtain ⟨flights, motion, axes⟩ := tripList cause _ nodup { s with freeIndex := s.freeIndex + 5 }
  obtain ⟨driven, kept⟩ := tripList_outputs cause _ nodup { s with freeIndex := s.freeIndex + 5 }
  have ports := tripList_ports cause _ nodup { s with freeIndex := s.freeIndex + 5 }
  simp only [all, decide_true, Bool.true_and, true_and, if_true, true_implies] at flights axes driven kept ports
  refine ⟨flights, fun n => (axes n).1, fun n => (axes n).2, ports, ?_, motion.freeIndex ▸ motion⟩
  split <;> rename_i trips
  · exact driven trips
  · exact (kept fun f => Bool.eq_false_iff.mpr fun h => trips ⟨f, h⟩).outputs

end

/-! ### What a link sends, taken -/

section
variable {i : LinkId} {l : Link} {s : State} {src : Source} {occurs : Condition → Bool}

/-- A link's sends, taken in any order, are its act (09, R165). -/
theorem sends_acted (i : LinkId) (l : Link) (s : State) : l.Acted i s (takeInAnyOrder (sends i l.action) takeEffect s) := by
  unfold Link.Acted
  split <;> rename_i act <;> rw [act, sends]
  · rfl
  · rw [takeInAnyOrder_map]
    exact holds_everyHeld s _
  · rfl
  · rw [takeInAnyOrder_map]
    exact trips_everyTripped s _
  · rfl
  · rfl

theorem sourceEvent_met (sole : SoleLink i l s) (requests : l.Requests) (source : l.source = src) (recomputes : Bool) :
    l.MetEvent i (occurs l.cond = true) s (sourceEvent src occurs recomputes s) := by
  rw [← source, sourceEvent_sole sole requests]
  exact ⟨fun acts => by rw [if_pos acts]; exact sends_acted i l s, fun silent => if_neg silent⟩

end

/-! ### The scanner beside a link's act -/

section
variable {i : LinkId} {l : Link} {s t : State} (mode : ScanMode) (scan : ScanState)

theorem holdFlight_setScan (f : FlightId) (cause : HoldCause) (s : State) :
    holdFlight f cause (setScan mode scan s) = setScan mode scan (holdFlight f cause s) := by
  have same : (setScan mode scan s).flight f = s.flight f := rfl
  unfold holdFlight
  rw [same]
  split <;> rfl

theorem tripFlight_setScan (f : FlightId) (cause : TripCause) (s : State) :
    tripFlight f cause (setScan mode scan s) = setScan mode scan (tripFlight f cause s) := by
  have same : (setScan mode scan s).flight f = s.flight f := rfl
  unfold tripFlight
  rw [same]
  split <;> rfl

theorem rejectStart_setScan (f : FlightId) (s : State) :
    rejectStart f (setScan mode scan s) = setScan mode scan (rejectStart f s) := by
  have same : (setScan mode scan s).flight f = s.flight f := rfl
  unfold rejectStart
  rw [same]
  split <;> rfl

theorem activate_setScan (f : FlightId) (seg : Segment) (byCue : Bool) (s : State) :
    activate f seg byCue (setScan mode scan s) = setScan mode scan (activate f seg byCue s) := by
  have same : (setScan mode scan s).flight f = s.flight f := rfl
  unfold activate
  rw [same]
  dsimp only
  split <;> rfl

theorem startHead_setScan (byCue : Bool) (f : FlightId) (s : State) :
    (startHead byCue f (setScan mode scan s)).1 = setScan mode scan (startHead byCue f s).1 := by
  have same : (setScan mode scan s).flight f = s.flight f := rfl
  cases queue : (s.flight f).queue with
  | nil => rw [startHead_empty queue, startHead_empty (same ▸ queue)]
  | cons seg rest =>
    have queue' : ((setScan mode scan s).flight f).queue = seg :: rest := queue
    let queued := s.updFlight f fun r => { r with queue := rest }
    by_cases fits : StartFits s f seg
    · rw [startHead_taken queue fits.1 fits.2, startHead_taken queue' fits.1 fits.2]
      exact activate_setScan mode scan f seg byCue queued
    · rw [(startHead_refused queue fits).1, (startHead_refused queue' fits).1]
      exact rejectStart_setScan mode scan f queued

theorem cueFlight_setScan (f : FlightId) (s : State) :
    cueFlight f (setScan mode scan s) = setScan mode scan (cueFlight f s) := by
  have same : (setScan mode scan s).flight f = s.flight f := rfl
  unfold cueFlight
  rw [same]
  dsimp only
  split
  · rw [startHead_setScan]
    exact (apply_ite (setScan mode scan) _ _ _).symm
  · rfl
  · rfl

/-- A link's act is the same whatever the scanner does beside it. -/
theorem Link.Acted.setScan (acted : l.Acted i s t) : l.Acted i (setScan mode scan s) (setScan mode scan t) := by
  unfold Link.Acted at acted ⊢
  split at acted
  · rw [acted, holdFlight_setScan]
  · obtain ⟨flights, axes, ports, outputs, rest⟩ := acted
    exact ⟨flights, axes, ports, outputs, congrArg (Machine.setScan mode scan) rest⟩
  · rw [acted, tripFlight_setScan]
  · obtain ⟨flights, braked, axes, ports, outputs, rest⟩ := acted
    exact ⟨flights, braked, axes, ports, outputs, congrArg (Machine.setScan mode scan) rest⟩
  · rw [acted, cueFlight_setScan]
  · rw [acted]

theorem Link.MetEvent.setScan {occurs : Prop} (met : l.MetEvent i occurs s t) :
    l.MetEvent i occurs (setScan mode scan s) (setScan mode scan t) :=
  ⟨fun h => (met.1 h).setScan mode scan, fun h => congrArg (Machine.setScan mode scan) (met.2 h)⟩

/-- The scanner goes on behind a conversion by the slots and the mode alone. -/
theorem nextConversion_congr (k : SlotId) (slots : t.slots = s.slots) (same : t.scanMode = s.scanMode) :
    nextConversion k t = setScan (nextConversion k s).scanMode (nextConversion k s).scanState t := by
  have slot (q : SlotId) : t.slot q = s.slot q := by unfold State.slot; rw [slots]
  unfold nextConversion endScan beginScan
  simp only [slot, same]
  repeat' split
  all_goals simp_all [setScan]

end
end Sys2Proof.Machine
end

section
namespace Sys2Proof.Machine

/-! ## New results (08, R149 to R153, R155) -/

/-! ### What effects leave of the scanner -/

/-- From s to t the scanner, its slots and their fresh flags have not changed. -/
structure ScannerKept (s t : State) : Prop where
  slots : t.slots = s.slots
  scanMode : t.scanMode = s.scanMode
  scanState : t.scanState = s.scanState
  fresh : ∀ u, (t.port u).fresh = (s.port u).fresh

section
variable {s t u : State}

theorem ScannerKept.refl (s : State) : ScannerKept s s := ⟨rfl, rfl, rfl, fun _ => rfl⟩

theorem ScannerKept.trans (h : ScannerKept s t) (k : ScannerKept t u) : ScannerKept s u :=
  ⟨k.slots.trans h.slots, k.scanMode.trans h.scanMode, k.scanState.trans h.scanState,
    fun v => (k.fresh v).trans (h.fresh v)⟩

theorem OnlyMotionChanged.scannerKept (h : OnlyMotionChanged s t) (fresh : ∀ u, (t.port u).fresh = (s.port u).fresh) :
    ScannerKept s t := ⟨h.slots, h.scanMode, h.scanState, fresh⟩

theorem updFlight_scannerKept (f : FlightId) (g : Flight → Flight) (s : State) : ScannerKept s (s.updFlight f g) :=
  (updFlight_motion f g s).scannerKept fun _ => rfl

theorem raiseFlight_scannerKept (f : FlightId) (g : FlightNotices → FlightNotices) (s : State) :
    ScannerKept s (raiseFlight f g s) := (mapPorts_motion _ s).scannerKept fun u => by rw [State.mapPorts_port]

theorem putFlightState_scannerKept (f : FlightId) (x : FlightState) (s : State) : ScannerKept s (putFlightState f x s) :=
  ((updFlight_scannerKept f _ s).trans (raiseFlight_scannerKept f _ _)).trans
    ((driveOutputs_motion _).scannerKept fun _ => rfl)

theorem holdFlight_scannerKept (f : FlightId) (cause : HoldCause) (s : State) : ScannerKept s (holdFlight f cause s) :=
  (holdFlight_motion f cause s).scannerKept fun u => by rw [holdFlight_port]; rfl

theorem tripFlight_scannerKept (f : FlightId) (cause : TripCause) (s : State) : ScannerKept s (tripFlight f cause s) :=
  (tripFlight_motion f cause s).scannerKept fun u => by rw [tripFlight_port]; rfl

theorem rejectStart_scannerKept (f : FlightId) (s : State) : ScannerKept s (rejectStart f s) := by
  unfold rejectStart
  split
  · exact raiseFlight_scannerKept _ _ _
  · exact (raiseFlight_scannerKept _ _ _).trans (putFlightState_scannerKept _ _ _)

theorem activate_scannerKept (f : FlightId) (seg : Segment) (byCue : Bool) (s : State) :
    ScannerKept s (activate f seg byCue s) := by
  unfold activate
  dsimp only
  split
  · exact ((updFlight_scannerKept _ _ _).trans (raiseFlight_scannerKept _ _ _)).trans (putFlightState_scannerKept _ _ _)
  · exact (updFlight_scannerKept _ _ _).trans (putFlightState_scannerKept _ _ _)

theorem startHead_scannerKept (byCue : Bool) (f : FlightId) (s : State) : ScannerKept s (startHead byCue f s).1 := by
  cases queue : (s.flight f).queue with
  | nil => rw [startHead_empty queue]; exact .refl s
  | cons seg rest =>
    by_cases fits : StartFits s f seg
    · rw [startHead_taken queue fits.1 fits.2]
      exact (updFlight_scannerKept _ _ _).trans (activate_scannerKept _ _ _ _)
    · rw [(startHead_refused queue fits).1]
      exact (updFlight_scannerKept _ _ _).trans (rejectStart_scannerKept _ _)

theorem cueFlight_scannerKept (f : FlightId) (s : State) : ScannerKept s (cueFlight f s) := by
  unfold cueFlight
  dsimp only
  split
  · split
    · exact startHead_scannerKept _ _ _
    · exact .refl s
  · exact .refl s
  · exact .refl s

theorem recomputeEnable_scannerKept (st : Station) (s : State) : ScannerKept s (recomputeEnable st s) := by
  have stored : ScannerKept s (s.setEnable st (enableOf s st)) := ⟨rfl, rfl, rfl, fun _ => rfl⟩
  have restrained := restrainClaimed_spec st .enableLost (s.setEnable st (enableOf s st))
  unfold recomputeEnable
  dsimp only
  split
  · exact stored.trans (restrained.rest.scannerKept fun u => by rw [restrained.ports]; rfl)
  · exact stored

theorem takeEffect_scannerKept (e : Effect) (s : State) : ScannerKept s (takeEffect e s) := by
  cases e with
  | hold f cause => exact holdFlight_scannerKept f cause s
  | trip f cause => exact tripFlight_scannerKept f cause s
  | cue f => exact cueFlight_scannerKept f s
  | recompute st => exact recomputeEnable_scannerKept st s

theorem sourceEvent_scannerKept (src : Source) (occurs : Condition → Bool) (recomputes : Bool) (s : State) :
    ScannerKept s (sourceEvent src occurs recomputes s) :=
  takeInAnyOrder_keeps (ScannerKept s) _ takeEffect s (fun _ _ h => ⟨h.slots, h.scanMode, h.scanState, h.fresh⟩)
    (fun e _ t h => h.trans (takeEffect_scannerKept e t)) (.refl s)

end

/-! ### A slot's new result -/

section
variable {i : LinkId} {l : Link} {k : SlotId} {s : State} (raw : Nat) (origin : Origin)

/-- The state in which a new result meets the reflex table (08, R149 to R152). -/
def withNewResult (k : SlotId) (raw : Nat) (origin : Origin) (s : State) : State :=
  raiseFresh k (s.updSlot k fun _ => (s.slot k).withResult raw origin)

/-- A new result is its slot's alone; it is fresh on every port, and the scanner does not move for it. -/
theorem newResult_frame (k : SlotId) (s : State) :
    let t := newResult k raw origin s
    t.slots = (withNewResult k raw origin s).slots ∧ (∀ u, (t.port u).fresh[k] = true) ∧
      t.scanMode = s.scanMode ∧ t.scanState = s.scanState := by
  have kept : ScannerKept (withNewResult k raw origin s) (newResult k raw origin s) := sourceEvent_scannerKept _ _ _ _
  refine ⟨kept.slots, fun u => ?_, kept.scanMode, kept.scanState⟩
  have raised : ((withNewResult k raw origin s).port u).fresh[k] = true := by
    rw [withNewResult, raiseFresh, State.mapPorts_port]
    exact (getElem_updAt _ _ _ _).trans (if_pos rfl)
  exact (congrArg (fun v => v[k]) (kept.fresh u)).trans raised

/-- With no link on its slot a new result does nothing else. -/
theorem newResult_unlinked (none : NoLinkOn (.slot k) s) : newResult k raw origin s = withNewResult k raw origin s :=
  sourceEvent_nothing (s := withNewResult k raw origin s) none _ _

/-- The one link on a slot meets its new result (08, R153; 09, R165, R166). -/
theorem newResult_met (sole : SoleLink i l s) (source : l.source = .slot k) (requests : l.Requests) :
    l.MetEvent i (l.cond.OnResult (s.slot k) ((s.slot k).withResult raw origin)) (withNewResult k raw origin s)
      (newResult k raw origin s) := by
  rw [← resultOccurs_iff]
  exact sourceEvent_met (s := withNewResult k raw origin s) sole requests source _

end

/-! ### The scan behind a conversion (08, R144, R146) -/

section
variable {k : SlotId} {s : State}

theorem nextConversion_on (h : k.val + 1 < 8) (enabled : (s.slot ⟨k.val + 1, h⟩).enabled = true) :
    nextConversion k s = setScan s.scanMode (.scanning ⟨k.val + 1, h⟩) s := by
  rw [nextConversion, dif_pos h, if_pos enabled]
  rfl

theorem nextConversion_ends (last : ∀ h : k.val + 1 < 8, (s.slot ⟨k.val + 1, h⟩).enabled = false) :
    nextConversion k s = endScan s := by
  unfold nextConversion
  split
  · rw [if_neg (by rw [last]; decide)]
  · rfl

theorem endScan_step (mode : s.scanMode = .step) : endScan s = setScan s.scanMode .waiting s := by
  simp only [endScan, mode]
  rfl

theorem endScan_continuous (mode : s.scanMode = .continuous) :
    endScan s = if (s.slot 0).enabled then setScan s.scanMode (.scanning 0) s else setScan .stopped .stopped s := by
  rw [← beginScan_freely (by rw [mode]; decide)]
  simp only [endScan, mode]

theorem endScan_stopped (mode : s.scanMode = .once ∨ s.scanMode = .stopped) : endScan s = setScan .stopped .stopped s := by
  rcases mode with mode | mode <;> simp only [endScan, mode] <;> rfl

/-- What a new result leaves of the slots' settings. -/
theorem withNewResult_enabled (raw : Nat) (origin : Origin) (q : SlotId) :
    ((withNewResult k raw origin s).slot q).enabled = (s.slot q).enabled := by
  show ((s.updSlot k _).slot q).enabled = _
  rw [State.updSlot_slot]
  split
  · rename_i e; rw [e]; rfl
  · rfl

end

/-- Settles O52: INJECT's refusals, the injected result, the converted one. -/
theorem resultsAreJudged : Obligations.ResultsAreJudged := by
  refine ⟨fun st slot raw s live => ⟨fun far => ?_, fun near running => ?_⟩, fun st slot raw k s live named stopped => ?_,
    fun raw k s live converting => ?_⟩
  · refine exec_refused (i := .inject st slot raw) rfl live ?_
    show serveInject slot raw _ = _
    rw [serveInject, slotOf_none far]
  · refine exec_refused (i := .inject st slot raw) rfl live ?_
    show serveInject slot raw _ = _
    rw [serveInject, slotOf_some (k := ⟨slot.toNat, near⟩) rfl]
    exact if_neg running
  · intro reading tared result
    have taken := exec_inject_taken (st := st) (raw := raw) live named stopped
    obtain ⟨slots, fresh, mode, scan⟩ := newResult_frame reading .injected k (markHeard st s)
    have slot (q : SlotId) : (newResult k reading .injected (markHeard st s)).slot q = if q = k then result else s.slot q :=
      (congrArg (fun v : Vector Slot 8 => v[q]) slots).trans (State.updSlot_slot _ _ _ _)
    refine ⟨⟨_, taken, (slot k).trans (if_pos rfl), fun q other => (slot q).trans (if_neg other), fun u => ?_, mode, scan⟩,
      fun none => ?_, fun i l sole source requests => ?_⟩
    · rw [reply, startReply_port]
      split <;> exact fresh u
    · rw [taken, newResult_unlinked (s := markHeard st s) _ _ none]
      rfl
    · exact ⟨_, taken, newResult_met (s := markHeard st s) _ _ sole source requests⟩
  · intro tared result u scanned
    have taken := exec_conversionComplete_taken (raw := raw) live converting
    have went : nextConversion k u = scanned := by
      have enabled (q : SlotId) : (u.slot q).enabled = (s.slot q).enabled := withNewResult_enabled raw.toNat .converted q
      show nextConversion k u = dite _ _ _
      split <;> rename_i on
      · obtain ⟨h, q, next, enabledNext⟩ := on
        obtain rfl : q = ⟨k.val + 1, h⟩ := Fin.ext next
        exact nextConversion_on h ((enabled _).trans enabledNext)
      · have last (h : k.val + 1 < 8) : (u.slot ⟨k.val + 1, h⟩).enabled = false := by
          rw [enabled, ← Bool.not_eq_true]
          exact fun enabledNext => on ⟨h, _, rfl, enabledNext⟩
        rw [nextConversion_ends last]
        split <;> rename_i mode
        · exact endScan_step mode
        · rw [endScan_continuous (s := u) mode, enabled]
          rfl
        · exact endScan_stopped (.inl mode)
        · exact endScan_stopped (.inr mode)
    obtain ⟨slots, -, mode, -⟩ := newResult_frame raw.toNat .converted k s
    refine ⟨fun none => ?_, fun i l sole source requests => ⟨_, taken, ?_⟩⟩
    · rw [taken, newResult_unlinked _ _ none]
      exact congrArg _ went
    · have met := newResult_met raw.toNat .converted sole source requests
      rw [← went, nextConversion_congr k slots mode, nextConversion_frame k u]
      exact met.setScan (nextConversion k u).scanMode (nextConversion k u).scanState

end Sys2Proof.Machine
end

section
namespace Sys2Proof.Machine

/-! ## READ-SLOTS and READ-LINES (08, R152; 09, R160 to R162; 10, R185, R186) -/

/-! ### Tables of bytes -/

/-- Byte j of block m in a table of blocks of one size. -/
theorem byteAt_flatMap {α : Type} {size : Nat} {f : α → List Byte} (sized : ∀ a, (f a).length = size) (l : List α) {m : Nat}
    (hm : m < l.length) {j : Nat} (hj : j < size) : byteAt (l.flatMap f) (size * m + j) = byteAt (f l[m]) j := by
  induction l generalizing m with
  | nil => cases hm
  | cons a l ih =>
    rw [List.flatMap_cons]
    cases m with
    | zero =>
      rw [Nat.mul_zero, Nat.zero_add, byteAt, byteAt, List.getD_append _ _ _ _ (by rw [sized]; exact hj)]
      rfl
    | succ m =>
      rw [show size * (m + 1) + j = (f a).length + (size * m + j) by rw [sized]; ring, byteAt_append]
      exact ih (Nat.lt_of_succ_lt_succ hm)

theorem allSlots_getElem (k : SlotId) : allSlots[k.val]'k.isLt = k := by revert k; decide
theorem allLinks_getElem (m : LinkId) : allLinks[m.val]'m.isLt = m := by revert m; decide

/-- Up to sixteen flags in a field behind other bytes. -/
theorem halfAt_flagsBehind (pre : List Byte) (flags : List Bool) (rest : List Byte) {i b : Nat} (place : pre.length = i)
    (low : b < 16) : (halfAt (pre ++ (flagsHalf flags ++ rest)) i).getLsbD b = flags.getD b false := by
  rw [← place, ← Nat.add_zero pre.length, halfAt_append, halfAt_flagsHalf flags low]

theorem getD_toList {n : Nat} (v : Vector Bool n) (i : Fin n) : v.toList.getD i false = v[i] := by
  simp

/-! ### READ-SLOTS, offset by offset -/

section
variable (st : Station) (s : State) (k : SlotId)

theorem slotsData_length : (slotsData st s).length = 116 := rfl

theorem slotsData_slot {j : Nat} (hj : j < 14) :
    byteAt (0 :: slotsData st s) (5 + j + 14 * k) = byteAt (slotBytes (s.slot k)) j := by
  have block := byteAt_flatMap (f := fun k => slotBytes (s.slot k)) (fun _ => rfl) allSlots k.isLt hj
  rw [allSlots_getElem] at block
  rw [← block, show 5 + j + 14 * k.val = 5 + (14 * k.val + j) by ring]
  exact byteAt_append [0, s.scanMode.byte, s.scanState.byte, convertingByte s.scanState, flagsByte (s.port st).fresh.toList] _ _

/-- A 2-byte field of a slot's block, at its offset in the BODY. -/
theorem slotsData_field {j : Nat} (hj : j < 13) (h : Half)
    (field : [byteAt (slotBytes (s.slot k)) j, byteAt (slotBytes (s.slot k)) (j + 1)] = halfBytes h) :
    halfAt (0 :: slotsData st s) (5 + j + 14 * k) = h := by
  rw [halfAt, show 5 + j + 14 * k.val + 1 = 5 + (j + 1) + 14 * k.val by ring, slotsData_slot st s k (by omega),
    slotsData_slot st s k (by omega)]
  have read := halfAt_halfBytes h []
  rw [← field] at read
  exact read

end

/-! ### READ-LINES, offset by offset -/

section
variable (st : Station) (s : State)

theorem linkBytes_length (l : Option Link) : (linkBytes l).length = 5 := by
  rcases l with _ | ⟨src, cond, act⟩
  · rfl
  · cases act <;> rfl

theorem linesData_length : (linesData st s).length = 128 := by
  simp [linesData, flagsHalf, linkBytes_length, allLinks]

theorem linesData_link (m : LinkId) {j : Nat} (hj : j < 5) :
    byteAt (0 :: linesData st s) (9 + 5 * m + j) = byteAt (linkBytes (s.link m)) j := by
  have block := byteAt_flatMap (f := fun i => linkBytes (s.link i)) (fun _ => linkBytes_length _) allLinks m.isLt hj
  rw [allLinks_getElem] at block
  rw [← block, Nat.add_assoc]
  exact byteAt_append (0 :: (flagsHalf (allLines.map fun n => decide ((s.line n).filtered = some .high)) ++
    flagsHalf (allLines.map fun n => decide ((s.line n).filtered = none)) ++
    flagsHalf (allLines.map fun n => (s.line n).filterOn) ++ flagsHalf (s.port st).change.toList)) _ _

theorem range_linkBytes (l : Option Link) : (List.range 5).map (byteAt (linkBytes l)) = linkBytes l := by
  rcases l with _ | ⟨src, cond, act⟩
  · rfl
  · cases act <;> rfl

/-- The five bytes of an entry, in a table of all entries. -/
theorem linesData_entry (m : LinkId) :
    (List.range 5).map (fun j => byteAt (0 :: linesData st s) (9 + 5 * m + j)) = linkBytes (s.link m) := by
  rw [← range_linkBytes]
  exact List.map_congr_left fun j hj => linesData_link st s m (List.mem_range.mp hj)

theorem getD_allLines (g : LineId → Bool) (n : LineId) : (allLines.map g).getD n false = g n := by
  fin_cases n <;> rfl

/-- Four fields of sixteen flags each behind the result code. -/
theorem flagFields (a b c d : List Bool) (rest : List Byte) {n : Nat} (low : n < 16) :
    let body : List Byte := 0 :: (flagsHalf a ++ flagsHalf b ++ flagsHalf c ++ flagsHalf d ++ rest)
    (halfAt body 1).getLsbD n = a.getD n false ∧ (halfAt body 3).getLsbD n = b.getD n false ∧
      (halfAt body 5).getLsbD n = c.getD n false ∧ (halfAt body 7).getLsbD n = d.getD n false := by
  simp only [List.append_assoc]
  exact ⟨halfAt_flagsBehind [0] a _ rfl low, halfAt_flagsBehind (0 :: flagsHalf a) b _ rfl low,
    halfAt_flagsBehind (0 :: flagsHalf a ++ flagsHalf b) c _ rfl low,
    halfAt_flagsBehind (0 :: flagsHalf a ++ flagsHalf b ++ flagsHalf c) d rest rfl low⟩

theorem linesData_line (n : LineId) :
    (halfAt (0 :: linesData st s) 1).getLsbD n = decide ((s.line n).filtered = some .high) ∧
      (halfAt (0 :: linesData st s) 3).getLsbD n = decide ((s.line n).filtered = none) ∧
      (halfAt (0 :: linesData st s) 5).getLsbD n = (s.line n).filterOn ∧
      (halfAt (0 :: linesData st s) 7).getLsbD n = (s.port st).change[n] := by
  obtain ⟨high, unsettled, on, change⟩ := flagFields (allLines.map fun n => decide ((s.line n).filtered = some .high))
    (allLines.map fun n => decide ((s.line n).filtered = none)) (allLines.map fun n => (s.line n).filterOn)
    (s.port st).change.toList (allLinks.flatMap fun i => linkBytes (s.link i)) n.isLt
  exact ⟨high.trans (getD_allLines _ n), unsettled.trans (getD_allLines _ n), on.trans (getD_allLines _ n),
    change.trans (getD_toList _ n)⟩

end

/-! ### Filter enables written with no link on a line (09, R160, R161) -/

/-- The line has a filtered level, and its raw level is another. -/
def SenseLine.Moved (l : SenseLine) : Prop := ∃ old, l.filtered = some old ∧ old ≠ l.raw

/-- The line at its raw level. -/
def SenseLine.atRaw (l : SenseLine) : SenseLine := { l with filtered := some l.raw, pending := none }

/-- From s to t the lines of a list take their raw level: as an accepted change where they had another level, with LINES and the
change flag on every port, and as a first settling where they had none. -/
structure RawTaken (l : List LineId) (s t : State) : Prop where
  line : ∀ n, t.line n = if n ∈ l then (s.line n).atRaw else s.line n
  change : ∀ u (n : LineId), (t.port u).change[n] = true ↔ (s.port u).change[n] = true ∨ n ∈ l ∧ (s.line n).Moved
  notice : ∀ u, (t.port u).linesNotice = true ↔ (s.port u).linesNotice = true ∨ ∃ n ∈ l, (s.line n).Moved
  port : ∀ u, t.port u = { s.port u with change := (t.port u).change, linesNotice := (t.port u).linesNotice }
  rest : t = { s with lines := t.lines, ports := t.ports, freeIndex := t.freeIndex }

section
variable {n : LineId} {l : List LineId} {s t u : State}

theorem RawTaken.nil (s : State) : RawTaken [] s s := ⟨by simp, by simp, by simp, fun _ => rfl, rfl⟩

theorem RawTaken.cons (apart : n ∉ l) (h : RawTaken [n] s t) (k : RawTaken l t u) : RawTaken (n :: l) s u := by
  have same (m : LineId) (hm : m ∈ l) : t.line m = s.line m := by
    rw [h.line, if_neg]
    simpa using ne_of_mem_of_not_mem hm apart
  have moved (m : LineId) : m ∈ l ∧ (t.line m).Moved ↔ m ∈ l ∧ (s.line m).Moved :=
    and_congr_right fun hm => by rw [same m hm]
  refine ⟨fun m => ?_, fun v m => ?_, fun v => ?_, fun v => ?_, ?_⟩
  · rw [k.line]
    by_cases hm : m ∈ l
    · simp [hm, same m hm]
    · simp [hm, h.line]
  · rw [k.change, h.change, moved, List.mem_singleton, List.mem_cons]
    tauto
  · simp only [k.notice, h.notice, moved, List.exists_mem_cons_iff, List.not_mem_nil, false_and, exists_false, or_false, or_assoc]
  · rw [k.port, h.port]
  · rw [k.rest, h.rest]

theorem NoLinkOn.of_links {src : Source} (none : NoLinkOn src s) (links : t.links = s.links) : NoLinkOn src t :=
  fun i x hx => none i x (by rwa [State.link, ← links])

/-- A line whose filter is off takes a raw level that is not its filtered level (09, R158 to R160). -/
theorem takeRaw_rawTaken (none : NoLinkOn (.line n) s) (unread : (s.line n).filtered ≠ some (s.line n).raw) :
    RawTaken [n] s (takeRaw n s) := by
  have written (m : LineId) : (s.updLine n .atRaw).line m = if m ∈ [n] then (s.line m).atRaw else s.line m := by
    rw [State.updLine_line]; simp
  unfold takeRaw
  split
  · rename_i unsettled
    have still (m : LineId) : ¬(m ∈ [n] ∧ (s.line m).Moved) := by
      rintro ⟨own, old, settled, -⟩
      rw [List.mem_singleton.mp own, unsettled] at settled
      cases settled
    have settles : settleLine n s = s.updLine n .atRaw :=
      sourceEvent_nothing (s := s.updLine n .atRaw) none _ _
    rw [settles]
    exact ⟨written, fun _ m => (or_iff_left (still m)).symm, fun _ => (or_iff_left fun ⟨m, h⟩ => still m h).symm,
      fun _ => rfl, rfl⟩
  · rename_i old settled
    have other : old ≠ (s.line n).raw := fun e => unread (settled.trans (congrArg some e))
    have moved : (s.line n).Moved := ⟨old, settled, other⟩
    rw [if_neg other]
    have accepts : acceptChange n (s.line n).raw s = raiseLineChange n (s.updLine n .atRaw) :=
      sourceEvent_nothing (s := raiseLineChange n (s.updLine n .atRaw)) none _ _
    have port (v : Station) : (raiseLineChange n (s.updLine n .atRaw)).port v =
        { s.port v with change := updAt (s.port v).change n fun _ => true, linesNotice := true } := State.mapPorts_port _ _ _
    rw [accepts]
    refine ⟨written, fun v m => ?_, fun v => ?_, fun v => ?_, rfl⟩
    · rw [port, getElem_updAt]
      by_cases e : m = n
      · simp [e, moved]
      · simp [e]
    · simp [port, moved]
    · rw [port]

theorem takeRawList_rawTaken (nodup : l.Nodup) (none : ∀ n, NoLinkOn (.line n) s)
    (unread : ∀ n ∈ l, (s.line n).filtered ≠ some (s.line n).raw) : RawTaken l s (l.foldl (fun t n => takeRaw n t) s) := by
  induction l generalizing s with
  | nil => exact .nil s
  | cons n l ih =>
    obtain ⟨apart, nodup⟩ := List.nodup_cons.mp nodup
    have one := takeRaw_rawTaken (none n) (unread n List.mem_cons_self)
    refine one.cons apart (ih nodup (fun m => ?_) fun m hm => ?_)
    · exact (none m).of_links (by rw [one.rest])
    · rw [one.line, if_neg (by simpa using ne_of_mem_of_not_mem hm apart)]
      exact unread m (List.mem_cons_of_mem _ hm)

/-- Lines with no link on them take their raw level alike in every order. -/
theorem takeRaws_rawTaken (nodup : l.Nodup) (none : ∀ n, NoLinkOn (.line n) s)
    (unread : ∀ n ∈ l, (s.line n).filtered ≠ some (s.line n).raw) : RawTaken l s (takeInAnyOrder l takeRaw s) := by
  have order := anyOrder_perm l.length l s.freeIndex
  obtain ⟨line, change, notice, port, rest⟩ := takeRawList_rawTaken (s := { s with freeIndex := s.freeIndex + (l.length - 1) })
    (order.nodup_iff.mpr nodup) none fun n hn => unread n (order.mem_iff.mp hn)
  simp only [order.mem_iff] at line change notice
  exact ⟨line, change, notice, port, rest⟩

/-- The filter of a line goes off where the enables are written. -/
abbrev GoesOff (w : Half) (s : State) (n : LineId) : Prop := (s.line n).filterOn = true ∧ w.getLsbD n = false

/-- The filter enables of all lines written, before a line takes its raw level (09, R160). -/
def enablesWritten (w : Half) (s : State) : State :=
  { s with lines := mapAt s.lines fun n l =>
    { l with filterOn := w.getLsbD n, pending := if l.filterOn && !w.getLsbD n then none else l.pending } }

theorem enablesWritten_line (w : Half) (s : State) (n : LineId) :
    (enablesWritten w s).line n =
      { s.line n with filterOn := w.getLsbD n, pending := if GoesOff w s n then none else (s.line n).pending } := by
  have goes : ((s.line n).filterOn && !w.getLsbD n) = true ↔ GoesOff w s n := by simp [GoesOff]
  have pending : (if (s.line n).filterOn && !w.getLsbD n then none else (s.line n).pending) =
      if GoesOff w s n then none else (s.line n).pending := if_congr goes rfl rfl
  rw [← pending]
  unfold enablesWritten State.line
  rw [getElem_mapAt]

/-- The lines whose filter goes off at a raw level that is not their filtered level. -/
def linesDue (w : Half) (s : State) : List LineId :=
  (allLines.filter fun n => (s.line n).filterOn && !w.getLsbD n).filter fun n =>
    decide ((s.line n).filtered ≠ some (s.line n).raw)

theorem mem_linesDue (w : Half) (s : State) (n : LineId) :
    n ∈ linesDue w s ↔ GoesOff w s n ∧ (s.line n).filtered ≠ some (s.line n).raw := by
  simp only [linesDue, GoesOff, List.mem_filter, mem_allLines, true_and, decide_eq_true_eq, Bool.and_eq_true, Bool.not_eq_true']

theorem writeFilters_eq (w : Half) (s : State) :
    writeFilters w s = takeInAnyOrder (linesDue w s) takeRaw (enablesWritten w s) := rfl

theorem enablesWritten_links (w : Half) (s : State) : (enablesWritten w s).links = s.links := by unfold enablesWritten; rfl

theorem enablesWritten_port (w : Half) (s : State) (u : Station) : (enablesWritten w s).port u = s.port u := by
  unfold State.port enablesWritten
  rfl

/-- With no link on a line, the lines due take their raw level and nothing else happens. -/
theorem writeFilters_rawTaken (w : Half) (none : ∀ n, NoLinkOn (.line n) s) :
    RawTaken (linesDue w s) (enablesWritten w s) (writeFilters w s) := by
  rw [writeFilters_eq]
  refine takeRaws_rawTaken ((allLines_nodup.filter _).filter _) (fun n => (none n).of_links (enablesWritten_links w s))
    fun n due => ?_
  rw [enablesWritten_line]
  exact ((mem_linesDue w s n).mp due).2

/-- From s to t the filter enables of all lines are written, with no link on a line: a line whose filter goes off takes its raw
level, as an accepted change where it had another (09, R160, R161). -/
structure FiltersWritten (w : Half) (s t : State) : Prop where
  line : ∀ n, t.line n =
    { s.line n with
      filterOn := w.getLsbD n
      pending := if GoesOff w s n then none else (s.line n).pending
      filtered := if GoesOff w s n then some (s.line n).raw else (s.line n).filtered }
  change : ∀ u (n : LineId),
    (t.port u).change[n] = true ↔ (s.port u).change[n] = true ∨ GoesOff w s n ∧ (s.line n).Moved
  notice : ∀ u, (t.port u).linesNotice = true ↔ (s.port u).linesNotice = true ∨ ∃ n, GoesOff w s n ∧ (s.line n).Moved
  port : ∀ u, t.port u = { s.port u with change := (t.port u).change, linesNotice := (t.port u).linesNotice }
  rest : t = { s with lines := t.lines, ports := t.ports, freeIndex := t.freeIndex }

theorem SenseLine.Moved.unread {x : SenseLine} (h : x.Moved) : x.filtered ≠ some x.raw := by
  obtain ⟨old, settled, other⟩ := h
  rw [settled]
  exact fun e => other (Option.some.inj e)

theorem writeFilters_written (w : Half) (none : ∀ n, NoLinkOn (.line n) s) : FiltersWritten w s (writeFilters w s) := by
  have taken := writeFilters_rawTaken w none
  have due (n : LineId) : n ∈ linesDue w s ∧ ((enablesWritten w s).line n).Moved ↔ GoesOff w s n ∧ (s.line n).Moved := by
    rw [mem_linesDue, enablesWritten_line]
    exact ⟨fun ⟨⟨off, _⟩, moved⟩ => ⟨off, moved⟩, fun ⟨off, moved⟩ => ⟨⟨off, moved.unread⟩, moved⟩⟩
  refine ⟨fun n => ?_, fun u n => ?_, fun u => ?_, fun u => ?_, ?_⟩
  · rw [taken.line, enablesWritten_line]
    by_cases off : GoesOff w s n
    · rw [if_pos off, if_pos off]
      by_cases read : (s.line n).filtered = some (s.line n).raw
      · rw [if_neg fun h => ((mem_linesDue w s n).mp h).2 read, ← read]
      · rw [if_pos ((mem_linesDue w s n).mpr ⟨off, read⟩)]
        rfl
    · rw [if_neg fun h => off ((mem_linesDue w s n).mp h).1, if_neg off, if_neg off]
  · rw [taken.change, due, enablesWritten_port]
  · rw [taken.notice, enablesWritten_port]
    exact or_congr_right (exists_congr due)
  · rw [taken.port, enablesWritten_port]
  · have rest := taken.rest
    unfold enablesWritten at rest
    exact rest

end

/-! ### A station heard keeps the flags of its port -/

section
variable (st u : Station) (s : State)

theorem markHeard_change : ((markHeard st s).port u).change = (s.port u).change := by
  rw [markHeard_port]
  split <;> rfl

theorem markHeard_linesNotice : ((markHeard st s).port u).linesNotice = (s.port u).linesNotice := by
  rw [markHeard_port]
  split <;> rfl

theorem markHeard_fresh : ((markHeard st s).port u).fresh = (s.port u).fresh := by
  rw [markHeard_port]
  split <;> rfl

end

/-- Settles O58: READ-SLOTS, READ-LINES, READ-LINES with filter enables. -/
theorem readsReportBlocks : Obligations.ReadsReportBlocks := by
  refine ⟨fun st s live => ?_, ?_⟩
  · refine ⟨slotsData st (markHeard st s), exec_served (i := .readSlots st) rfl live,
      by rw [List.length_cons, slotsData_length], rfl, rfl, ?_,
      fun k => ⟨?_, ?_, fun b low => ?_, ?_, ?_, ?_, ?_, ?_, ?_⟩⟩
    · show convertingByte s.scanState = _
      cases s.scanState <;> rfl
    · exact (flagsByte_getLsbD _ k.isLt).trans ((getD_toList _ k).trans (by rw [markHeard_fresh]))
    · exact slotsData_slot st _ k (j := 0) (by decide)
    · rw [show byteAt _ (6 + 14 * k) = _ from slotsData_slot st (markHeard st s) k (j := 1) (by decide)]
      refine (flagsByte_getLsbD _ low).trans ?_
      match b with
      | 0 | 1 | 2 | 3 | 4 | _ + 5 => rfl
    · exact slotsData_field st _ k (j := 4) (by decide) (BitVec.ofInt 16 (s.slot k).high) rfl
    · exact slotsData_field st _ k (j := 6) (by decide) (BitVec.ofInt 16 (s.slot k).low) rfl
    · exact slotsData_field st _ k (j := 8) (by decide) (BitVec.ofInt 16 (s.slot k).slack) rfl
    · exact slotsData_field st _ k (j := 2) (by decide) (BitVec.ofNat 16 (s.slot k).tare) rfl
    · exact slotsData_field st _ k (j := 10) (by decide) (BitVec.ofNat 16 (if (s.slot k).valid then (s.slot k).raw else 0)) rfl
    · exact slotsData_field st _ k (j := 12) (by decide) (BitVec.ofInt 16 (if (s.slot k).valid then (s.slot k).tared else 0)) rfl
  · intro reports answered
    have reported (st : Station) (w : State) : reports st w (linesData st w) := by
      refine ⟨by rw [List.length_cons, linesData_length], linesData_line st w, fun m => (linesData_entry st w m).trans ?_⟩
      cases w.link m <;> rfl
    refine ⟨fun st s live => ⟨_, exec_served (i := .readLines st none) rfl live, reported _ _⟩,
      fun st filters s live none => ?_⟩
    intro goesOff accepts
    have written := writeFilters_written (s := markHeard st s) filters none
    have notice (u : Station) : ((writeFilters filters (markHeard st s)).port u).linesNotice =
        ((s.port u).linesNotice || decide (∃ n, accepts n)) := by
      rw [Bool.eq_iff_iff, written.notice, Bool.or_eq_true, decide_eq_true_eq, markHeard_linesNotice]
      rfl
    have change (u : Station) (n : LineId) : ((writeFilters filters (markHeard st s)).port u).change[n] =
        ((s.port u).change[n] || decide (accepts n)) := by
      rw [Bool.eq_iff_iff, written.change, Bool.or_eq_true, decide_eq_true_eq, markHeard_change]
      rfl
    exact ⟨_, _, exec_served (i := .readLines st (some filters)) rfl live, reported _ _, written.line,
      fun u => ⟨notice u ▸ written.port u, change u⟩, written.rest⟩

end Sys2Proof.Machine
end

section
namespace Sys2Proof.Machine

/-! ## The output lines at every step (09, R169 to R171) -/

/-! ### Lines that follow are lines that a drive would leave as they are -/

/-- A PULSED phase has not yet counted its last step expiry (09, R170). -/
def Sounder.PhaseOpen (x : Sounder) : Prop := ∀ sounding count, x = .pulsed sounding count → count < 125

section
variable {x : Sounder} {tripped steady : Bool}

/-- The patterns that a drive leaves as they are, by the flight states (09, R170). -/
theorem nextSounder_fixed_iff :
    x = nextSounder tripped steady x ↔
      ((∃ sounding count, x = .pulsed sounding count) ↔ tripped = true) ∧
        (x = .steady ↔ ¬tripped = true ∧ steady = true) := by
  cases tripped
  case true => cases x <;> simp [nextSounder]
  case false => cases steady <;> cases x <;> simp [nextSounder]

theorem nextSounder_phaseOpen (h : x.PhaseOpen) : (nextSounder tripped steady x).PhaseOpen := by
  unfold nextSounder
  repeat' split
  · exact h
  all_goals intro _ _ e; cases e
  all_goals omega

/-- The tick of a phase changes no pattern (09, R170). -/
theorem tick_fixed (h : x = nextSounder tripped steady x) : x.tick = nextSounder tripped steady x.tick := by
  cases x with
  | off | steady => exact h
  | pulsed sounding count =>
    have on : tripped = true := (nextSounder_fixed_iff.mp h).1.mp ⟨_, _, rfl⟩
    rw [Sounder.tick, on]
    split <;> rfl

theorem tick_phaseOpen (h : x.PhaseOpen) : x.tick.PhaseOpen := by
  cases x with
  | off | steady => exact h
  | pulsed sounding count =>
    unfold Sounder.tick phaseSteps
    dsimp only
    split <;> intro _ _ e <;> cases e <;> omega

end

section
variable {s t : State}

/-- The lines follow the states where a drive would leave them as they are and no PULSED phase has run out. -/
theorem outputsFollow_iff : OutputsFollow s ↔ OutputsDriven s s ∧ s.sounder.PhaseOpen := by
  have brakes : (∀ n, s.brake n = (s.axis n).released) ↔
      ∀ n, s.brake n = true ↔ (s.axis n).state = .releasing ∨ (s.axis n).state = .following :=
    forall_congr' fun n => by rw [← released_iff, Bool.eq_iff_iff]
  have line : s.faultLine = (s.anyTripped || s.anyFaulted) ↔
      (s.faultLine = true ↔ (∃ f, (s.flight f).state = .tripped) ∨ ∃ n, (s.axis n).state = .faulted) := by
    rw [← anyTripped_iff, ← anyFaulted_iff, ← Bool.or_eq_true, Bool.eq_iff_iff]
  unfold OutputsDriven
  simp only [nextSounder_fixed_iff, anyTripped_iff, anySteady_iff, soundsSteady_iff, brakes, line]
  exact ⟨fun ⟨brake, pulsed, phase, steady, fault⟩ => ⟨⟨brake, ⟨pulsed, steady⟩, fault⟩, phase⟩,
    fun ⟨⟨brake, ⟨pulsed, steady⟩, fault⟩, phase⟩ => ⟨brake, pulsed, phase, steady, fault⟩⟩

/-- Driven outputs are those that a second drive leaves as they are. -/
theorem OutputsDriven.fixed (h : OutputsDriven s t) : OutputsDriven t t :=
  ⟨h.1, by rw [h.2.1, nextSounder_again id], h.2.2⟩

theorem OutputsFollow.drive (hs : OutputsFollow s) (h : OutputsDriven s t) : OutputsFollow t :=
  outputsFollow_iff.mpr ⟨h.fixed, h.2.1 ▸ nextSounder_phaseOpen (outputsFollow_iff.mp hs).2⟩

theorem OutputsFollow.keep (hs : OutputsFollow s) (h : StatesKept s t) : OutputsFollow t :=
  hs.drive ((outputsFollow_iff.mp hs).1.kept h)

theorem OutputsFollow.track (hs : OutputsFollow s) (h : OutputsTracked s t) : OutputsFollow t := h.elim hs.drive hs.keep

theorem OutputsFollow.quiet (hs : OutputsFollow s) (h : Quiet s t) : OutputsFollow t := by
  obtain ⟨flights, axes, -, brakes, line, sounder⟩ := h
  have still : StatesKept s { t with sounder := s.sounder } :=
    ⟨⟨brakes, rfl, line⟩, fun f => by simp [State.flight, flights], fun n => by simp [State.axis, axes]⟩
  obtain ⟨⟨onBrakes, pattern, onLine⟩, phase⟩ := outputsFollow_iff.mp (hs.keep still)
  rw [outputsFollow_iff]
  rcases sounder with e | e
  · exact ⟨⟨onBrakes, e ▸ pattern, onLine⟩, e ▸ phase⟩
  · exact ⟨⟨onBrakes, e ▸ tick_fixed pattern, onLine⟩, e ▸ tick_phaseOpen phase⟩

end

/-! ### Every act keeps the lines following -/

section
variable {s t : State}

theorem updAxis_statesKept {n : AxisId} {g : Axis → Axis} (s : State) (h : ∀ a, (g a).state = a.state) :
    StatesKept s (s.updAxis n g) := by
  refine ⟨⟨rfl, rfl, rfl⟩, fun _ => rfl, fun m => ?_⟩
  rw [State.updAxis_axis]
  split
  · exact h _
  · rfl

/-- A BIND drives the outputs where its flight was FREE, and moves no state where it was not (01, R8). -/
theorem bindMembers_tracked (f : FlightId) (ns : List AxisId) (s : State) : OutputsTracked s (bindMembers f ns s) := by
  unfold bindMembers
  dsimp only
  split
  · exact .inl (putFlightState_drivenFrom rfl)
  · refine .inr ⟨⟨rfl, rfl, rfl⟩, fun g => ?_, fun n => ?_⟩
    · rw [State.updFlight_flight]
      split <;> rfl
    · rw [State.updFlight_axis, State.mapAxes_axis]
      repeat' split
      all_goals rfl

theorem confirmArming_tracked (n : AxisId) (s : State) : OutputsTracked s (confirmArming n s) := by
  rcases confirmArming_cases n s with e | ⟨f, -, -, -, e⟩ <;> rw [e]
  · exact .inr (.refl s)
  · exact .inl (putFlightState_drivenFrom rfl)

theorem faultAxis_follow (n : AxisId) (cause : FaultCause) (hs : OutputsFollow s) : OutputsFollow (faultAxis n cause s) := by
  rcases faultAxis_cases n cause s with ⟨-, e⟩ | ⟨-, ⟨-, e⟩ | ⟨f, -, e⟩⟩ <;> rw [e]
  · exact hs
  · exact hs.drive (putAxis_driven _ _ _)
  · exact (hs.drive (putAxis_driven _ _ _)).track (tripFlight_tracked _ _ _)

theorem countMiss_follow (n : AxisId) (kind : ExchangeKind) (hs : OutputsFollow s) : OutputsFollow (countMiss n kind s) := by
  have counted : OutputsFollow (s.updAxis n fun a => a.missed kind) :=
    hs.keep (updAxis_statesKept s fun _ => rfl)
  rcases countMiss_cases n kind s with ⟨-, e⟩ | ⟨-, e⟩ <;> rw [e]
  · exact faultAxis_follow n _ counted
  · exact counted

/-- The reset leaves the flights, the axes and the lines of the state right after reset. -/
theorem assertReset_follow (s : State) : OutputsFollow (assertReset s) :=
  reset_outputsFollow.keep ⟨⟨rfl, rfl, rfl⟩, fun _ => rfl, fun _ => rfl⟩

theorem Act.follow (h : Act s t) (hs : OutputsFollow s) : OutputsFollow t := by
  cases h with
  | quiet h => exact hs.quiet h
  | fly f h => exact hs.track h.outputs
  | axis n h => exact hs.track h.outputs
  | trip f cause => exact hs.track (tripFlight_tracked f cause s)
  | abort f cause => exact hs.track (abortArming_tracked f cause s)
  | park f | resetFlight f | unbind f => exact hs.drive (putFlightState_drivenFrom rfl)
  | configure n p => exact hs.drive (configureAxis_driven n p s)
  | bind f ns => exact hs.track (bindMembers_tracked f ns s)
  | confirm n => exact hs.track (confirmArming_tracked n s)
  | fault n cause => exact faultAxis_follow n cause hs
  | miss n kind => exact countMiss_follow n kind hs
  | track n pos => exact hs.keep (updAxis_statesKept s fun _ => rfl)
  | claim f st => exact hs.keep (updFlight_statesKept s fun _ => rfl)
  | release f => exact hs.keep (updFlight_statesKept s fun _ => rfl)
  | slot k r => exact hs.keep ⟨⟨rfl, rfl, rfl⟩, fun _ => rfl, fun _ => rfl⟩
  | reset => exact assertReset_follow s

/-- An ARM drives the outputs from its flight's state and its members' (01, R13). -/
theorem armTaken_follow (h : ArmTaken s t) (hs : OutputsFollow s) : OutputsFollow t := by
  obtain ⟨st, f, u, v, kind, ans, quiet, -, rfl⟩ := h
  have driven : OutputsDriven u (armFlight f u) := putFlightState_drivenFrom rfl
  exact (hs.quiet quiet).drive (driven.reply v kind ans)

end

/-- Settles O5: each act drives the lines from the states it leaves, or leaves both alone, and so does an ARM. -/
theorem stepKeepsOutputs : Obligations.StepKeepsOutputs := by
  intro s t follow h
  obtain ⟨rest, ran⟩ := step_ran h
  have queued : OutputsFollow { s with pending := rest } := follow.keep ⟨⟨rfl, rfl, rfl⟩, fun _ => rfl, fun _ => rfl⟩
  rcases ran with acts | arm
  · exact acts.keeps (fun _ _ act => act.follow) queued
  · exact armTaken_follow arm queued

end Sys2Proof.Machine
end

section
namespace Sys2Proof.Machine

/-! ## The filters of the sense lines (09, R158, R159, R161, R165, R166) -/

/-! ### Links at the event of a line -/

/-- From s, an event of a line over the state `base`, at which `occurs` tells the conditions that occur or become true, leaves
t: with no link on the line nothing else happens, and the one link on it meets the event. -/
structure LineEvent (n : LineId) (occurs : Condition → Prop) (s base t : State) : Prop where
  unlinked : NoLinkOn (.line n) s → t = base
  met : ∀ i l, SoleLink i l s → l.source = .line n → l.Requests → l.MetEvent i (occurs l.cond) base t

section
variable {n : LineId} {level old : Level} {s t base : State} {c : Instr} {occurs : Condition → Prop}

/-- An event of a line over a state that has the links of s. -/
theorem sourceEvent_lineEvent {p : Condition → Bool} (links : base.links = s.links)
    (reads : ∀ cond, p cond = true ↔ occurs cond) :
    LineEvent n occurs s base (sourceEvent (.line n) p true base) where
  unlinked none := sourceEvent_nothing (none.of_links links) _ _
  met i l sole source requests := by
    have same (j : LinkId) : base.link j = s.link j := by rw [State.link, links]; rfl
    rw [← reads]
    exact sourceEvent_met ⟨(same i).trans sole.1, fun j m ne hm => sole.2 j m ne ((same j).symm.trans hm)⟩ requests source true

theorem acceptChange_lineEvent (n : LineId) (level : Level) (s : State) :
    LineEvent n (·.OnChange level) s (raiseLineChange n (s.updLine n fun l => { l with filtered := some level, pending := none }))
      (acceptChange n level s) :=
  sourceEvent_lineEvent rfl fun _ => changeOccurs_iff _ _

theorem settleLine_lineEvent (n : LineId) (s : State) :
    LineEvent n (·.OnSettling (s.line n).raw) s (s.updLine n .atRaw) (settleLine n s) :=
  sourceEvent_lineEvent rfl fun _ => settleOccurs_iff _ _

/-- What a command does whose one event is a line's. -/
theorem LineEvent.outcome (h : LineEvent n occurs s base t) (run : exec c s = .next t) :
    (NoLinkOn (.line n) s → exec c s = .next base) ∧
      ∀ (i : LinkId) (l : Link), SoleLink i l s → l.source = .line n → l.Requests →
        ∃ t, exec c s = .next t ∧ l.MetEvent i (occurs l.cond) base t :=
  ⟨fun none => run.trans (congrArg _ (h.unlinked none)),
    fun i l sole source requests => ⟨t, run, h.met i l sole source requests⟩⟩

/-! ### A raw change reaching the filter (09, R158, R159) -/

/-- The state in which a raw change reaches the filter of its line. -/
def rawAt (n : LineId) (level : Level) (s : State) : State := s.updLine n fun l => { l with raw := level }

theorem rawAt_line (n : LineId) (level : Level) (s : State) : (rawAt n level s).line n = { s.line n with raw := level } :=
  State.updLine_line_same _ _ _

theorem exec_rawLevelChange_live (live : s.resetAsserted = false) (moves : (s.line n).raw ≠ level) :
    exec (.rawLevelChange n level) s = .next (filterRaw n (rawAt n level s)) := by
  show execRawLevelChange n level s = _
  rw [execRawLevelChange, rawChange, if_neg moves, live]
  rfl

/-- With its filter on an unsettled line waits (09, R158). -/
theorem filterRaw_waits (on : (s.line n).filterOn = true) (unsettled : (s.line n).filtered = none) : filterRaw n s = s := by
  rw [filterRaw, if_pos on, unsettled]

/-- With its filter on a settled line has its raw level pending, where that is another (09, R159). -/
theorem filterRaw_pending (on : (s.line n).filterOn = true) (settled : (s.line n).filtered = some old) :
    filterRaw n s = s.updLine n fun l => { l with pending := if old = l.raw then none else some l.raw } := by
  rw [filterRaw, if_pos on, settled]

/-- With its filter off an unsettled line settles at once (09, R158). -/
theorem filterRaw_settles (off : ¬(s.line n).filterOn = true) (unsettled : (s.line n).filtered = none) :
    filterRaw n s = settleLine n s := by
  rw [filterRaw, if_neg off, takeRaw, unsettled]

/-- With its filter off a line that is back at its filtered level has changed nothing (09, R159). -/
theorem filterRaw_back (off : ¬(s.line n).filterOn = true) (settled : (s.line n).filtered = some (s.line n).raw) :
    filterRaw n s = s := by
  rw [filterRaw, if_neg off, takeRaw, settled]
  exact if_pos rfl

/-- A line that settles as its raw level changes settles at the new level (09, R158). -/
theorem settleLine_rawAt (n : LineId) (level : Level) (s : State) :
    LineEvent n (·.OnSettling level) s
      (s.updLine n fun l => { l with raw := level, filtered := some level, pending := none }) (settleLine n (rawAt n level s)) := by
  have event := settleLine_lineEvent n (rawAt n level s)
  rw [rawAt_line, rawAt, updLine_updLine] at event
  exact ⟨event.unlinked, event.met⟩

/-- A level accepted as the raw level changes to it (09, R159, R161). -/
theorem acceptChange_rawAt (n : LineId) (level : Level) (s : State) :
    LineEvent n (·.OnChange level) s
      (raiseLineChange n (s.updLine n fun l => { l with raw := level, filtered := some level, pending := none }))
      (acceptChange n level (rawAt n level s)) := by
  have event := acceptChange_lineEvent n level (rawAt n level s)
  rw [rawAt, updLine_updLine] at event
  exact ⟨event.unlinked, event.met⟩

end

/-- Settles O54: a raw change of an unsettled and of a settled line, by its filter, then the end of the filter's time and the first
settling. -/
theorem senseLinesFilter : Obligations.SenseLinesFilter := by
  refine ⟨fun n level s live moves unsettled => ?_, fun n level old s live moves settled => ?_,
    fun n old level s live on settled pending => ?_, fun n s live unsettled => ?_⟩
  · have line := rawAt_line n level s
    have taken := exec_rawLevelChange_live live moves
    split <;> rename_i filter
    · rw [taken, filterRaw_waits (by rwa [line]) (by rwa [line])]
      rfl
    · rw [filterRaw_settles (by rwa [line]) (by rwa [line])] at taken
      exact (settleLine_rawAt n level s).outcome taken
  · have line := rawAt_line n level s
    have taken := exec_rawLevelChange_live live moves
    split <;> rename_i filter
    · rw [taken, filterRaw_pending (old := old) (by rwa [line]) (by rwa [line]), rawAt, updLine_updLine]
    · split <;> rename_i back
      · subst back
        rw [taken, filterRaw_back (by rwa [line]) (by rwa [line])]
        rfl
      · exact (acceptChange_rawAt n level s).outcome
          (exec_rawLevelChange_taken live (Bool.eq_false_iff.mpr filter) settled back moves)
  · obtain ⟨unlinked, met⟩ := (acceptChange_lineEvent n level s).outcome (exec_filterAccept_taken live on settled pending)
    exact ⟨unlinked, fun i l _ => met i l⟩
  · exact (settleLine_lineEvent n s).outcome (exec_lineSettle_taken live unsettled)

end Sys2Proof.Machine
end

section
namespace Sys2Proof.Machine

/-! ## Fields of a BODY, written and read back (10, section 10.2, R179) -/

section
variable (body : List Byte)

theorem halfAt_own (h : Half) : halfAt (halfBytes h) 0 = h := halfAt_halfBytes h []
theorem wordAt_own (w : Word) : wordAt (wordBytes w) 0 = w := wordAt_wordBytes w []

open BitVec in
theorem halfBytes_append (a b : Byte) : halfBytes (a ++ b) = [a, b] :=
  congrArg₂ (fun x y => [x, y]) extractLsb'_append_eq_left extractLsb'_append_eq_right

open BitVec in
theorem wordBytes_append (a b c d : Byte) : wordBytes (((a ++ b : BitVec 16) ++ c : BitVec 24) ++ d) = [a, b, c, d] := by
  have above {n : Nat} (x : BitVec n) (y : Byte) (i : Nat) : (x ++ y).extractLsb' (i + 8) 8 = x.extractLsb' i 8 :=
    extractLsb'_append_eq_of_le (Nat.le_add_left 8 i)
  unfold wordBytes
  congr 4
  · exact (above _ d 16).trans ((above _ c 8).trans extractLsb'_append_eq_left)
  · exact (above _ d 8).trans ((above _ c 0).trans extractLsb'_append_eq_right)
  · exact (above _ d 0).trans extractLsb'_append_eq_right
  · exact extractLsb'_append_eq_right

theorem halfBytes_halfAt (i : Nat) : halfBytes (halfAt body i) = [byteAt body i, byteAt body (i + 1)] := halfBytes_append ..

theorem wordBytes_wordAt (i : Nat) :
    wordBytes (wordAt body i) = [byteAt body i, byteAt body (i + 1), byteAt body (i + 2), byteAt body (i + 3)] :=
  wordBytes_append ..

variable {body}

theorem halfAt_eq {i : Nat} {h : Half} (field : [byteAt body i, byteAt body (i + 1)] = halfBytes h) : halfAt body i = h := by
  rw [← halfAt_own (halfAt body i), halfBytes_halfAt, field, halfAt_own]

theorem wordAt_eq {i : Nat} {w : Word}
    (field : [byteAt body i, byteAt body (i + 1), byteAt body (i + 2), byteAt body (i + 3)] = wordBytes w) :
    wordAt body i = w := by
  rw [← wordAt_own (wordAt body i), wordBytes_wordAt, field, wordAt_own]

/-- A BODY is the list of its bytes. -/
theorem range_byteAt (body : List Byte) {n : Nat} (sized : body.length = n) : (List.range n).map (byteAt body) = body := by
  subst sized
  refine List.ext_getElem (by simp) fun i _ hi => ?_
  simp [byteAt, hi]

end

/-! ## Requests and their spelling (10, R179) -/

theorem ofLength_request {n : Nat} {body : List Byte} {i j : Instr} (h : ofLength n body j = .request i) :
    body.length = n ∧ j = i := by
  rw [ofLength] at h
  split at h
  · exact ⟨‹_›, Decoded.request.inj h⟩
  · cases h

/-- The frame of a request spells it. -/
theorem decodeRequest_of_encoded {i : Instr} {st : Station} {kind : Byte} {body : List Byte}
    (spelled : encodeRequest i = some (st, kind, body))
    (listed : ∀ u f axes, i = .bind u f axes → 1 ≤ axes.length ∧ axes.length ≤ 4) :
    decodeRequest st kind body = .request i := by
  cases i with
  | bind _ flight axes =>
    cases spelled
    obtain ⟨one, four⟩ := listed _ _ _ rfl
    exact if_pos ⟨Nat.succ_le_succ one, Nat.succ_le_succ four⟩
  | configureAxis _ axis address lower upper vmax amax window slot =>
    cases spelled
    refine congrArg Decoded.request ?_
    congr 1
    exacts [wordAt_eq rfl, wordAt_eq rfl, wordAt_eq rfl, halfAt_eq rfl, wordAt_eq rfl]
  | setFlightLimits _ flight holdDecel loadMin loadMax =>
    cases spelled
    refine congrArg Decoded.request ?_
    congr 1
    exacts [halfAt_eq rfl, halfAt_eq rfl, halfAt_eq rfl]
  | append _ flight tag presence t0 t1 t2 t3 vmax aUp aDn dwell start flags =>
    simp only [encodeRequest, halfBytes, wordBytes, List.cons_append, List.nil_append] at spelled
    cases spelled
    refine congrArg Decoded.request ?_
    congr 1
    exacts [halfAt_eq rfl, wordAt_eq rfl, wordAt_eq rfl, wordAt_eq rfl, wordAt_eq rfl, wordAt_eq rfl, halfAt_eq rfl,
      halfAt_eq rfl, halfAt_eq rfl]
  | setSlot _ slot input enabled tare high low slack =>
    cases spelled
    refine congrArg Decoded.request ?_
    congr 1
    exacts [halfAt_eq rfl, halfAt_eq rfl, halfAt_eq rfl, halfAt_eq rfl]
  | inject _ slot raw =>
    cases spelled
    exact congrArg (Decoded.request ∘ Instr.inject st slot) (halfAt_eq rfl)
  | readLines _ filters =>
    cases filters with
    | none => cases spelled; rfl
    | some w =>
      cases spelled
      exact congrArg (Decoded.request ∘ Instr.readLines st ∘ some) (halfAt_eq rfl)
  | _ => cases spelled <;> rfl

/-- A request that a KIND and BODY spell is spelled so. -/
theorem encodeRequest_of_request {st : Station} {kind : Byte} {body : List Byte} {i : Instr}
    (h : decodeRequest st kind body = .request i) : encodeRequest i = some (st, kind, body) := by
  have spelled {k : Byte} {b : List Byte} (number : kind.toNat = k.toNat) (same : b = body) :
      some (st, k, b) = some (st, kind, body) := by
    rw [BitVec.eq_of_toNat_eq number, same]
  unfold decodeRequest at h
  split at h <;> rename_i number
  case h_30 => cases h
  case h_3 =>
    split at h <;> cases h
    rename_i sized
    refine spelled number ?_
    cases body with
    | nil => cases sized.1
    | cons flight axes => rfl
  case h_29 =>
    split at h
    · rename_i sized
      cases h
      exact spelled number (List.eq_nil_of_length_eq_zero sized).symm
    · split at h <;> cases h
      rename_i sized
      exact spelled number ((halfBytes_halfAt body 0).trans (range_byteAt body sized))
  -- the rows with 2-byte and 4-byte fields: CONFIGURE-AXIS, SET-FLIGHT-LIMITS, APPEND, SET-SLOT, INJECT
  case h_5 | h_6 | h_18 | h_22 | h_24 =>
    obtain ⟨sized, rfl⟩ := ofLength_request h
    refine spelled number (Eq.trans ?_ (range_byteAt body sized))
    simp only [halfBytes_halfAt, wordBytes_wordAt]
    rfl
  all_goals
    obtain ⟨sized, rfl⟩ := ofLength_request h
    exact spelled number (range_byteAt body sized)

/-- Settles O16, request by request one way and row by row of the catalogue the other. -/
theorem requestsRoundTrip : Obligations.RequestsRoundTrip :=
  ⟨fun _ _ _ _ spelled listed => decodeRequest_of_encoded spelled listed, fun _ _ _ _ h => encodeRequest_of_request h⟩

/-! ## The events of a port (10, R175 to R178) -/

section
variable {st : Station} {s : State}

theorem exec_unknownKind_live {kind : Byte} (live : s.resetAsserted = false) (unknown : kind ∉ requestKinds) :
    exec (.unknownKind st kind) s = .next (answer st kind .unknownKind s) := by
  show execUnknownKind st kind s = _
  have absent : isRequestKind kind = false := by simpa [isRequestKind] using unknown
  rw [execUnknownKind, absent]
  exact onRequest_live live

theorem exec_gap_assembling (live : s.resetAsserted = false) (assembling : (s.port st).stage ≠ .hunting) :
    exec (.gap st) s = .next (discardFrame st (fun e => { e with gap := true }) s) := by
  show execGap st s = _
  simp [execGap, live, assembling]

theorem exec_replySent_empty (live : s.resetAsserted = false) (sending : (s.port st).tx ≠ .idle)
    (empty : (s.port st).buffer = none) : exec (.replySent st) s = .next (s.updPort st fun p => { p with tx := .idle }) := by
  show execReplySent st s = _
  simp [execReplySent, live, sending, replyEnds, empty]

end

/-- Settles O59, by the event and, behind a reply's last byte, by the buffer and what its frame decodes to. -/
theorem portEvents : Obligations.PortEvents := by
  refine ⟨fun _ _ _ live unknown => exec_unknownKind_live live unknown,
    fun _ _ live assembling => exec_gap_assembling live assembling, fun st s live sending => ?_⟩
  cases waiting : (s.port st).buffer with
  | none => exact exec_replySent_empty live sending waiting
  | some fr =>
    rw [exec_replySent_buffered live sending waiting, takeFrame]
    dsimp only
    cases decodeRequest st fr.kind fr.body <;> rfl

end Sys2Proof.Machine
end

section
namespace Sys2Proof.Machine

/-! ## READ-FLIGHT and READ-AXIS (10, R183, R184) -/

/-! ### A BODY from an offset on -/

/-- From an offset on, a BODY is these bytes. -/
def Follows (body : List Byte) (i : Nat) (rest : List Byte) : Prop := body.drop i = rest

section
variable {body l rest : List Byte} {i : Nat}

theorem Follows.skip (h : Follows body i (l ++ rest)) (n : Nat) (sized : l.length = n) : Follows body (i + n) rest := by
  subst sized
  rw [Follows, ← List.drop_drop, h, List.drop_left]

theorem Follows.byte (h : Follows body i rest) (j : Nat) : byteAt body (i + j) = byteAt rest j := by
  rw [← h, byteAt, byteAt, List.getD_eq_getElem?_getD, List.getD_eq_getElem?_getD, List.getElem?_drop]

theorem Follows.half (h : Follows body i rest) (j : Nat) {x : Half}
    (field : [byteAt rest j, byteAt rest (j + 1)] = halfBytes x) : halfAt body (i + j) = x := by
  refine halfAt_eq (field ▸ ?_)
  rw [← h.byte, ← h.byte, Nat.add_assoc]

theorem Follows.word (h : Follows body i rest) (j : Nat) {x : Word}
    (field : [byteAt rest j, byteAt rest (j + 1), byteAt rest (j + 2), byteAt rest (j + 3)] = wordBytes x) :
    wordAt body (i + j) = x := by
  refine wordAt_eq (field ▸ ?_)
  rw [← h.byte, ← h.byte, ← h.byte, ← h.byte]
  simp only [Nat.add_assoc]

theorem Follows.pair (h : Follows body i (l ++ rest)) (two : l.length = 2) : [byteAt body i, byteAt body (i + 1)] = l := by
  obtain ⟨a, b, rfl⟩ := List.length_eq_two.mp two
  exact congrArg₂ (fun x y => [x, y]) (h.byte 0) (h.byte 1)

/-! ### Padded lists and tables -/

theorem byteAt_append_left (low : i < l.length) : byteAt (l ++ rest) i = byteAt l i := List.getD_append _ _ _ _ low

@[simp] theorem padTo_length (n : Nat) (fill : Byte) (l : List Byte) : (padTo n fill l).length = n := by simp [padTo]

/-- Byte i of a list brought to a length is the list's own, or the filler. -/
theorem byteAt_padTo {n : Nat} (low : i < n) (fill : Byte) (l : List Byte) : byteAt (padTo n fill l) i = l.getD i fill := by
  rw [padTo, byteAt, List.getD_eq_getElem?_getD, List.getElem?_take_of_lt low, List.getElem?_append]
  split <;> rename_i own
  · simp [own]
  · rw [List.getElem?_replicate, if_pos (by omega), List.getD_eq_getElem?_getD, List.getElem?_eq_none (Nat.le_of_not_lt own)]
    rfl

/-- Byte j of block m in a padded table of blocks of one size: 0 where there is no such block. -/
theorem byteAt_padded_table {α : Type} {size n : Nat} {f : α → List Byte} (sized : ∀ a, (f a).length = size) (l : List α)
    {m j : Nat} (hj : j < size) (low : size * m + j < n) :
    byteAt (padTo n 0 (l.flatMap f)) (size * m + j) = (l[m]?.map fun a => byteAt (f a) j).getD 0 := by
  rw [byteAt_padTo low]
  by_cases hm : m < l.length
  · rw [List.getElem?_eq_getElem hm]
    exact byteAt_flatMap sized l hm hj
  · have beyond : (l.flatMap f).length ≤ size * m + j := by
      rw [List.length_flatMap, List.map_congr_left (fun a _ => sized a), List.map_const', List.sum_replicate_nat]
      nlinarith
    rw [List.getElem?_eq_none (Nat.le_of_not_lt hm), List.getD_eq_getElem?_getD, List.getElem?_eq_none beyond]
    rfl

end

/-! ### The parts of READ-FLIGHT's BODY, by the offset at which each begins -/

section
variable (f : FlightId) (r : Flight)

def flightFrom95 : List Byte := [natByte r.queue.length] ++ padTo 32 0 (r.queue.flatMap waitingBytes)
def flightFrom24 : List Byte := activeBytes r.active ++ flightFrom95 r
def flightFrom18 : List Byte := natHalf r.holdDecel ++ intHalf r.loadMin ++ intHalf r.loadMax ++ flightFrom24 r
def flightFrom16 : List Byte := tripCauseBytes r.tripCause ++ flightFrom18 r
def flightFrom14 : List Byte := holdCauseBytes r.holdCause ++ flightFrom16 r
def flightFrom9 : List Byte :=
  [r.cueGate.byte, flightFlags r] ++ natHalf (r.dwell.getD 0) ++ [natByte (r.armTimer.getD 0)] ++ flightFrom14 r
def flightFrom5 : List Byte := padTo 4 0xFF (r.members.map fun n : AxisId => natByte n) ++ flightFrom9 r
def flightFrom1 : List Byte := [natByte f, r.state.byte, claimByte r.claim, natByte r.members.length] ++ flightFrom5 r

theorem holdCauseBytes_length (c : Option HoldCause) : (holdCauseBytes c).length = 2 := by
  cases c with
  | none => rfl
  | some c => cases c <;> rfl

theorem tripCauseBytes_length (c : Option TripCause) : (tripCauseBytes c).length = 2 := by
  cases c with
  | none => rfl
  | some c => cases c <;> rfl

/-- The four bytes that report a path length or path position. -/
def pathWord (x : Nat) : Word := if x < 2 ^ 32 then BitVec.ofNat 32 x else Config.wideReport x

theorem pathBytes_eq (x : Nat) : pathBytes x = wordBytes (pathWord x) := by
  rw [pathBytes, pathWord]
  split <;> rfl

theorem pathWord_fits {x : Nat} (fits : x < 2 ^ 32) : pathWord x = BitVec.ofNat 32 x := if_pos fits

theorem targets_toList (seg : Segment) :
    seg.targets.toList = [seg.target 0, seg.target 1, seg.target 2, seg.target 3] := by
  refine List.ext_getElem (by simp) fun i hi _ => ?_
  match i, hi with
  | 0, _ | 1, _ | 2, _ | 3, _ => rfl

/-- Tag, presence and targets of a segment record. -/
def targetBytes (seg : Segment) : List Byte :=
  halfBytes seg.tag ++ [flagsByte [(seg.target 0).isSome, (seg.target 1).isSome, (seg.target 2).isSome, (seg.target 3).isSome]] ++
  intWord ((seg.target 0).getD 0) ++ intWord ((seg.target 1).getD 0) ++ intWord ((seg.target 2).getD 0) ++
  intWord ((seg.target 3).getD 0)

/-- The limits, the dwell, the start kind and the flags of a segment record. -/
def motionBytes (seg : Segment) : List Byte :=
  natWord seg.vmax ++ natHalf seg.aUp ++ natHalf seg.aDn ++ natHalf seg.dwell ++ [seg.start.byte, seg.flags]

theorem segmentBytes_eq (seg : Segment) : segmentBytes seg = targetBytes seg ++ motionBytes seg := by
  rw [segmentBytes, targets_toList]
  rfl

theorem segmentBytes_length (seg : Segment) : (segmentBytes seg).length = 31 := by
  rw [segmentBytes_eq]
  rfl

theorem Segment.flags_eq (seg : Segment) :
    seg.flags = (if seg.recycle then 1 else 0) + (if seg.loadCheck then 2 else 0) := by
  rw [Segment.flags]
  cases seg.recycle <;> cases seg.loadCheck <;> rfl

theorem activeBytes_length (a : Option Active) : (activeBytes a).length = 71 := by
  cases a with
  | none => rfl
  | some a =>
    simp only [activeBytes, pathBytes_eq, List.length_append, segmentBytes_length, padTo_length, wordBytes_length]
    rfl

theorem flightData_length : (flightData f r).length = 127 := by
  simp only [flightData, List.length_append, padTo_length, holdCauseBytes_length, tripCauseBytes_length, activeBytes_length]
  rfl

theorem flight_from1 : Follows (0 :: flightData f r) 1 (flightFrom1 f r) := by
  simp [Follows, flightData, flightFrom1, flightFrom5, flightFrom9, flightFrom14, flightFrom16, flightFrom18, flightFrom24,
    flightFrom95, ← List.map_eq_flatMap, Function.comp_def]

theorem flight_from5 : Follows (0 :: flightData f r) 5 (flightFrom5 r) := (flight_from1 f r).skip 4 rfl
theorem flight_from9 : Follows (0 :: flightData f r) 9 (flightFrom9 r) := (flight_from5 f r).skip 4 (padTo_length ..)
theorem flight_from14 : Follows (0 :: flightData f r) 14 (flightFrom14 r) := (flight_from9 f r).skip 5 rfl
theorem flight_from16 : Follows (0 :: flightData f r) 16 (flightFrom16 r) :=
  (flight_from14 f r).skip 2 (holdCauseBytes_length _)
theorem flight_from18 : Follows (0 :: flightData f r) 18 (flightFrom18 r) :=
  (flight_from16 f r).skip 2 (tripCauseBytes_length _)
theorem flight_from24 : Follows (0 :: flightData f r) 24 (flightFrom24 r) := (flight_from18 f r).skip 6 rfl
theorem flight_from95 : Follows (0 :: flightData f r) 95 (flightFrom95 r) :=
  (flight_from24 f r).skip 71 (activeBytes_length _)

/-! ### The fields of READ-FLIGHT -/

theorem flight_member {i : Nat} (low : i < 4) : byteAt (0 :: flightData f r) (5 + i) =
    (r.members.map fun n : AxisId => natByte n).getD i 0xFF := by
  rw [(flight_from5 f r).byte i, flightFrom5, byteAt_append_left (by rwa [padTo_length]), byteAt_padTo low]

theorem flight_waiting {j : Nat} (low : j < 8) :
    let body := 0 :: flightData f r
    [byteAt body (96 + 4 * j), byteAt body (97 + 4 * j), byteAt body (98 + 4 * j), byteAt body (99 + 4 * j)] =
      (r.queue[j]?.map waitingBytes).getD [0, 0, 0, 0] := by
  intro body
  have table : Follows body 96 (padTo 32 0 (r.queue.flatMap waitingBytes)) := (flight_from95 f r).skip 1 rfl
  have entry (k : Nat) (hk : k < 4) : byteAt body (96 + k + 4 * j) =
      (r.queue[j]?.map fun seg => byteAt (waitingBytes seg) k).getD 0 := by
    rw [Nat.add_assoc, Nat.add_comm k, table.byte, byteAt_padded_table (f := waitingBytes) (fun _ => rfl) _ hk (by omega)]
  show [byteAt body (96 + 0 + 4 * j), byteAt body (96 + 1 + 4 * j), byteAt body (96 + 2 + 4 * j),
    byteAt body (96 + 3 + 4 * j)] = _
  rw [entry 0 (by decide), entry 1 (by decide), entry 2 (by decide), entry 3 (by decide)]
  cases r.queue[j]? <;> rfl

theorem flight_noActive (idle : r.active = none) {j : Nat} (first : 24 ≤ j) (last : j ≤ 94) :
    byteAt (0 :: flightData f r) j = 0 := by
  obtain ⟨k, rfl⟩ := Nat.exists_eq_add_of_le first
  rw [(flight_from24 f r).byte, flightFrom24, idle, activeBytes, byteAt_append_left (by simp; omega), byteAt,
    List.getD_replicate _ (by omega)]

end

section
variable (f : FlightId) {r : Flight} {a : Active}

/-! The parts of an active segment, before the rest of the BODY. -/

def activeFrom71 (a : Active) (rest : List Byte) : List Byte :=
  wordBytes (pathWord a.pathLen) ++ (wordBytes (pathWord a.pos) ++ (natWord a.speed ++ (natWord a.vEff ++
    (natHalf a.aUpEff ++ (natHalf a.aDnEff ++ (natHalf a.aHoldEff ++ (natHalf (a.aStop.getD 0) ++ rest)))))))
def activeFrom55 (a : Active) (rest : List Byte) : List Byte :=
  padTo 16 0 (a.starts.flatMap intWord) ++ activeFrom71 a rest
def activeFrom43 (a : Active) (rest : List Byte) : List Byte := motionBytes a.seg ++ activeFrom55 a rest

variable (flies : r.active = some a)
include flies

theorem flight_targets : Follows (0 :: flightData f r) 24 (targetBytes a.seg ++ activeFrom43 a (flightFrom95 r)) := by
  have parts := flight_from24 f r
  rw [flightFrom24, flies] at parts
  simpa [activeBytes, activeFrom43, activeFrom55, activeFrom71, pathBytes_eq, segmentBytes_eq] using parts

theorem flight_motion : Follows (0 :: flightData f r) 43 (activeFrom43 a (flightFrom95 r)) := (flight_targets f flies).skip 19 rfl

theorem flight_starts : Follows (0 :: flightData f r) 55 (activeFrom55 a (flightFrom95 r)) := (flight_motion f flies).skip 12 rfl

theorem flight_path : Follows (0 :: flightData f r) 71 (activeFrom71 a (flightFrom95 r)) :=
  (flight_starts f flies).skip 16 (padTo_length ..)

theorem flight_start {i : Nat} (low : i < 4) :
    wordAt (0 :: flightData f r) (55 + 4 * i) = BitVec.ofInt 32 (a.starts.getD i 0) := by
  have entry (k : Nat) (hk : k < 4) : byteAt (activeFrom55 a (flightFrom95 r)) (4 * i + k) =
      byteAt (intWord (a.starts.getD i 0)) k := by
    rw [activeFrom55, byteAt_append_left (by rw [padTo_length]; omega),
      byteAt_padded_table (f := intWord) (fun _ => rfl) _ hk (by omega), List.getD_eq_getElem?_getD]
    cases a.starts[i]? with
    | some x => rfl
    | none =>
      match k, hk with
      | 0, _ | 1, _ | 2, _ | 3, _ => rfl
  refine (flight_starts f flies).word (4 * i) ?_
  rw [entry 1 (by decide), entry 2 (by decide), entry 3 (by decide)]
  exact congrArg (· :: _) (entry 0 (by decide))

theorem flight_target {i : Nat} (low : i < 4) :
    wordAt (0 :: flightData f r) (27 + 4 * i) = BitVec.ofInt 32 ((a.seg.target i).getD 0) := by
  have record := flight_targets f flies
  match i, low with
  | 0, _ => exact record.word 3 rfl
  | 1, _ => exact record.word 7 rfl
  | 2, _ => exact record.word 11 rfl
  | 3, _ => exact record.word 15 rfl

theorem flight_presence {b : Nat} (low : b < 8) : (byteAt (0 :: flightData f r) 26).getLsbD b = (a.seg.target b).isSome := by
  have record := flight_targets f flies
  rw [show byteAt (0 :: flightData f r) 26 = _ from record.byte 2]
  refine (flagsByte_getLsbD _ low).trans ?_
  match b with
  | 0 | 1 | 2 | 3 => rfl
  | b + 4 => exact (congrArg Option.isSome (show a.seg.target (b + 4) = none from dif_neg (by omega))).symm

end

theorem exec_readFlight_named {st : Station} {flight : Byte} {f : FlightId} {s : State} (named : NamesFlight flight f)
    (live : s.resetAsserted = false) : exec (.readFlight st flight) s =
      .next (startReply st kindReadFlight { code := .done, data := flightData f (s.flight f) } (markHeard st s)) := by
  have served (t : State) : serveReadFlight flight t = (t, { code := .done, data := flightData f (t.flight f) }) := by
    rw [serveReadFlight, flightOf_of_names named]
  rw [exec_served (i := .readFlight st flight) rfl live]
  show Host.Outcome.next (startReply st kindReadFlight (serveReadFlight flight _).2 (serveReadFlight flight _).1) = _
  rw [served]
  rfl

/-! ### READ-AXIS -/

section
variable (n : AxisId) (a : Axis)

/-- READ-AXIS's BODY behind the parameters. -/
def axisFrom25 : List Byte :=
  intWord a.setPoint ++
  ([flagsByte [a.lastWrite.isSome, a.lastWrite.any (·.release), a.measured.isSome, a.driveStatus.isSome]] ++
  (intWord ((a.lastWrite.map (·.setPoint)).getD 0) ++ (intWord (a.measured.getD 0) ++
  [a.driveStatus.getD 0, natByte a.missedStreak, natByte a.writeStreak])))

theorem paramsBytes_length (p : Option AxisParams) : (paramsBytes p).length = 20 := by cases p <;> rfl

theorem axis_from5 : Follows (0 :: axisData n a) 5 (paramsBytes a.params ++ axisFrom25 a) := by
  simp [Follows, axisData, axisFrom25]

theorem axis_from25 : Follows (0 :: axisData n a) 25 (axisFrom25 a) := (axis_from5 n a).skip 20 (paramsBytes_length _)

theorem axisData_length : (axisData n a).length = 40 := by
  simp only [axisData, List.length_append, paramsBytes_length]
  rfl

variable {a}

/-- An UNCONFIGURED axis reports 0 for each parameter. -/
theorem axis_unconfigured (bare : a.params = none) {j : Nat} (first : 5 ≤ j) (last : j ≤ 23) :
    byteAt (0 :: axisData n a) j = 0 := by
  obtain ⟨k, rfl⟩ := Nat.exists_eq_add_of_le first
  rw [(axis_from5 n a).byte, bare, paramsBytes, List.append_assoc, byteAt_append_left (by simp; omega), byteAt,
    List.getD_replicate _ (by omega)]

end

theorem exec_readAxis_named {st : Station} {axis : Byte} {n : AxisId} {s : State} (named : axis.toNat = n.val)
    (live : s.resetAsserted = false) : exec (.readAxis st axis) s =
      .next (startReply st kindReadAxis { code := .done, data := axisData n (s.axis n) } (markHeard st s)) := by
  have served (t : State) : serveReadAxis axis t = (t, { code := .done, data := axisData n (t.axis n) }) := by
    rw [serveReadAxis, axisOf_some named]
  rw [exec_served (i := .readAxis st axis) rfl live]
  show Host.Outcome.next (startReply st kindReadAxis (serveReadAxis axis _).2 (serveReadAxis axis _).1) = _
  rw [served]
  rfl

theorem natByte_of_toNat {b : Byte} {n : Nat} (named : b.toNat = n) : natByte n = b := by
  rw [natByte, ← named, BitVec.ofNat_toNat, BitVec.setWidth_eq]

/-- Settles O57: the refusals, then either BODY field by field, behind the offset at which the field's part begins. -/
theorem readsReportRecords : Obligations.ReadsReportRecords := by
  refine ⟨fun st number s live => ⟨fun out => ?_, fun out => ?_⟩, fun st flight f s named live => ?_,
    fun st axis n s named live => ?_⟩
  · refine exec_refused (i := .readFlight st number) rfl live ?_
    show serveReadFlight number _ = _
    rw [serveReadFlight, flightOf_none out]
  · refine exec_refused (i := .readAxis st number) rfl live ?_
    show serveReadAxis number _ = _
    rw [serveReadAxis, axisOf_none out]
  · refine ⟨_, exec_readFlight_named named live, ?_⟩
    intro body r
    have lead : Follows body 1 (flightFrom1 f r) := flight_from1 f r
    have times : Follows body 9 (flightFrom9 r) := flight_from9 f r
    have limits : Follows body 18 (flightFrom18 r) := flight_from18 f r
    refine ⟨congrArg Nat.succ (flightData_length f r), (lead.byte 0).trans (natByte_of_toNat named), lead.byte 1,
      lead.byte 2, lead.byte 3, fun i low => ?_, times.byte 0, fun b low => ?_, times.half 2 rfl, times.byte 4, ?_, ?_, limits.half 0 rfl, limits.half 2 rfl, limits.half 4 rfl,
      fun a flies => ?_, fun idle j => flight_noActive f r idle, (flight_from95 f r).byte 0, fun j low => ?_⟩
    · rw [flight_member f r low, List.getD_eq_getElem?_getD, List.getElem?_map]
      cases r.members[i]? <;> rfl
    · rw [show byteAt body 10 = flightFlags r from times.byte 1]
      refine (flagsByte_getLsbD _ low).trans ?_
      match b with
      | 0 | 1 | 2 | 3 | 4 | 5 | 6 | _ + 7 => rfl
    · rw [(flight_from14 f r).pair (holdCauseBytes_length _)]
      rcases r.holdCause with _ | _ | _ | _ | _ | _ | _ <;> rfl
    · rw [(flight_from16 f r).pair (tripCauseBytes_length _)]
      rcases r.tripCause with _ | _ | _ | _ | _ <;> rfl
    · have targets : Follows body 24 _ := flight_targets f flies
      have motion : Follows body 43 _ := flight_motion f flies
      have path : Follows body 71 _ := flight_path f flies
      exact ⟨targets.half 0 rfl, fun b low => flight_presence f flies low, fun i low => flight_target f flies low,
        motion.word 0 rfl, motion.half 4 rfl, motion.half 6 rfl, motion.half 8 rfl, motion.byte 10,
        (motion.byte 11).trans a.seg.flags_eq, fun i low => flight_start f flies low,
        fun fits => (path.word 0 rfl).trans (pathWord_fits fits), fun fits => (path.word 4 rfl).trans (pathWord_fits fits),
        path.word 8 rfl, path.word 12 rfl, path.half 16 rfl, path.half 18 rfl, path.half 20 rfl, path.half 22 rfl⟩
    · refine (flight_waiting f r low).trans ?_
      cases r.queue[j]? with
      | none => rfl
      | some seg => exact congrArg (fun x => halfBytes seg.tag ++ [seg.start.byte, x]) seg.flags_eq
  · refine ⟨_, exec_readAxis_named named live, ?_⟩
    intro body a
    have configured : Follows body 5 _ := axis_from5 n a
    have last : Follows body 25 (axisFrom25 a) := axis_from25 n a
    refine ⟨congrArg Nat.succ (axisData_length n a), natByte_of_toNat named, rfl, ?_, ?_, fun p given => ?_,
      ⟨fun bare j => axis_unconfigured n bare, fun bare => ?_⟩, last.word 0 rfl, fun b low => ?_, last.word 5 rfl,
      last.word 9 rfl, last.byte 13, last.byte 14, last.byte 15⟩
    · show (match a.flight with | some f => natByte f | none => 0xFF) = _
      cases a.flight <;> rfl
    · show (match a.faultCause with | some c => c.byte | none => 0) = _
      cases a.faultCause <;> rfl
    · rw [given] at configured
      refine ⟨configured.byte 0, configured.word 1 rfl, configured.word 5 rfl, configured.word 9 rfl, configured.half 13 rfl,
        configured.word 15 rfl, (configured.byte 19).trans ?_⟩
      show (match p.slot with | some k => natByte k | none => 0xFF) = _
      cases p.slot <;> rfl
    · rw [bare] at configured
      exact configured.byte 19
    · rw [show byteAt body 29 = _ from last.byte 4]
      refine (flagsByte_getLsbD _ low).trans ?_
      match b with
      | 0 | 1 | 2 | 3 | _ + 4 => rfl

end Sys2Proof.Machine
end

section
namespace Sys2Proof.Machine

/-! ## The queue of commands and the counter of free choices (log entries 1, 6) -/

/-- From s to t the waiting commands are the same, and free choices have only been counted up. -/
structure QueueKept (s t : State) : Prop where
  pending : t.pending = s.pending
  counted : s.freeIndex ≤ t.freeIndex

section
variable {s t u : State}

theorem QueueKept.of_eq (pending : t.pending = s.pending) (same : t.freeIndex = s.freeIndex) : QueueKept s t :=
  ⟨pending, same.ge⟩

theorem QueueKept.refl (s : State) : QueueKept s s := .of_eq rfl rfl

theorem QueueKept.trans (h : QueueKept s t) (k : QueueKept t u) : QueueKept s u :=
  ⟨k.pending.trans h.pending, h.counted.trans k.counted⟩

theorem QueueKept.ite {c : Prop} [Decidable c] (h : QueueKept s t) (k : QueueKept s u) :
    QueueKept s (if c then t else u) := by
  split
  · exact h
  · exact k

theorem QueueKept.foldl {α : Type} (l : List α) (step : State → α → State) (h : ∀ s a, QueueKept s (step s a))
    (s : State) : QueueKept s (l.foldl step s) := by
  induction l generalizing s with
  | nil => exact .refl s
  | cons a l ih => exact (h s a).trans (ih _)

theorem OnlyMotionChanged.queueKept (h : OnlyMotionChanged s t) : QueueKept s t := .of_eq h.pending h.freeIndex

theorem FlightWork.queueKept {f : FlightId} (h : FlightWork f s t) : QueueKept s t := h.motion.queueKept

end

theorem freeIndex_queueKept (n : Nat) (s : State) : QueueKept s { s with freeIndex := s.freeIndex + n } :=
  ⟨rfl, Nat.le_add_right _ _⟩

/-- Effects in a free order count their choices and add what each of them counts. -/
theorem takeInAnyOrder_queueKept {α : Type} (l : List α) {act : α → State → State} (h : ∀ a s, QueueKept s (act a s))
    (s : State) : QueueKept s (takeInAnyOrder l act s) :=
  (freeIndex_queueKept (l.length - 1) s).trans (QueueKept.foldl _ _ (fun t a => h a t) _)

/-! ### The authority unit and the reflex table -/

theorem restrainClaimed_queueKept (st : Station) (cause : HoldCause) (s : State) : QueueKept s (restrainClaimed st cause s) :=
  (restrainClaimed_spec st cause s).rest.queueKept

theorem recomputeEnable_queueKept (st : Station) (s : State) : QueueKept s (recomputeEnable st s) :=
  have stored : QueueKept s (s.setEnable st (enableOf s st)) := .of_eq rfl rfl
  .ite (stored.trans (restrainClaimed_queueKept _ _ _)) stored

theorem cueFlight_queueKept (f : FlightId) (s : State) : QueueKept s (cueFlight f s) := by
  unfold cueFlight
  dsimp only
  split
  · exact .ite (startHead_work _ _ _).queueKept (.refl s)
  all_goals exact .refl s

theorem takeEffect_queueKept (e : Effect) (s : State) : QueueKept s (takeEffect e s) := by
  cases e with
  | hold f cause => exact (holdFlight_motion f cause s).queueKept
  | trip f cause => exact (tripFlight_motion f cause s).queueKept
  | cue f => exact cueFlight_queueKept f s
  | recompute st => exact recomputeEnable_queueKept st s

theorem sourceEvent_queueKept (src : Source) (occurs : Condition → Bool) (recomputes : Bool) (s : State) :
    QueueKept s (sourceEvent src occurs recomputes s) := takeInAnyOrder_queueKept _ takeEffect_queueKept s

theorem writeLink_queueKept (i : LinkId) (l : Link) (s : State) : QueueKept s (writeLink i l s) :=
  have written : QueueKept s (s.setLink i (some l)) := .of_eq rfl rfl
  written.trans (takeInAnyOrder_queueKept _ takeEffect_queueKept _)

theorem clearEntry_queueKept (i : LinkId) (s : State) : QueueKept s (clearEntry i s) := by
  have cleared : QueueKept s (s.setLink i none) := .of_eq rfl rfl
  unfold clearEntry
  dsimp only
  split
  · exact cleared.trans (recomputeEnable_queueKept _ _)
  · exact cleared

/-! ### The sense lines -/

theorem updLine_queueKept (n : LineId) (g : SenseLine → SenseLine) (s : State) : QueueKept s (s.updLine n g) :=
  .of_eq rfl rfl

theorem acceptChange_queueKept (n : LineId) (level : Level) (s : State) : QueueKept s (acceptChange n level s) :=
  have accepted : QueueKept s (raiseLineChange n (s.updLine n fun l => { l with filtered := some level, pending := none })) :=
    .of_eq rfl rfl
  accepted.trans (sourceEvent_queueKept _ _ _ _)

theorem settleLine_queueKept (n : LineId) (s : State) : QueueKept s (settleLine n s) :=
  (updLine_queueKept _ _ s).trans (sourceEvent_queueKept _ _ _ _)

theorem takeRaw_queueKept (n : LineId) (s : State) : QueueKept s (takeRaw n s) := by
  unfold takeRaw
  split
  · exact settleLine_queueKept n s
  · exact .ite (.refl s) (acceptChange_queueKept n _ s)

theorem filterRaw_queueKept (n : LineId) (s : State) : QueueKept s (filterRaw n s) := by
  refine .ite ?_ (takeRaw_queueKept n s)
  split
  · exact .refl s
  · exact updLine_queueKept _ _ s

theorem rawChange_queueKept (n : LineId) (level : Level) (s : State) : QueueKept s (rawChange n level s) :=
  have moved := updLine_queueKept n (fun l => { l with raw := level }) s
  .ite (.refl s) (.ite moved (moved.trans (filterRaw_queueKept n _)))

theorem writeFilters_queueKept (w : Half) (s : State) : QueueKept s (writeFilters w s) := by
  unfold writeFilters
  dsimp only
  refine QueueKept.trans ?_ (takeInAnyOrder_queueKept _ takeRaw_queueKept _)
  exact .of_eq rfl rfl

theorem releaseReset_queueKept (s : State) : QueueKept s (releaseReset s) :=
  have live : QueueKept s { s with timerRunning := true, resetAsserted := false } := .of_eq rfl rfl
  live.trans (takeInAnyOrder_queueKept _ settleLine_queueKept _)

/-! ### The scanner -/

theorem beginScan_queueKept (s : State) : QueueKept s (beginScan s) := by
  rw [beginScan_frame]; exact .of_eq rfl rfl

theorem nextConversion_queueKept (k : SlotId) (s : State) : QueueKept s (nextConversion k s) := by
  rw [nextConversion_frame]; exact .of_eq rfl rfl

theorem scannerStep_queueKept (s : State) : QueueKept s (scannerStep s) := by
  rw [scannerStep_frame]; exact .of_eq rfl rfl

theorem startScan_queueKept (mode : ScanMode) (s : State) : QueueKept s (startScan mode s) := by
  have began (now : ScanMode) : QueueKept s (beginScan { s with scanMode := now }) :=
    QueueKept.trans (t := { s with scanMode := now }) (.of_eq rfl rfl) (beginScan_queueKept _)
  cases mode
  case once | continuous => exact began _
  all_goals exact .of_eq rfl rfl

theorem newResult_queueKept (k : SlotId) (raw : Nat) (origin : Origin) (s : State) : QueueKept s (newResult k raw origin s) :=
  have stored : QueueKept s (raiseFresh k (s.updSlot k fun _ => (s.slot k).withResult raw origin)) := .of_eq rfl rfl
  stored.trans (sourceEvent_queueKept _ _ _ _)

/-! ### The axis bus and supervision -/

theorem passTurn_queueKept {x : Turn} {s t : State} (h : QueueKept s t) : QueueKept s (passTurn x t) := by
  rw [passTurn_frame]; exact h.trans (.of_eq rfl rfl)

theorem countMiss_queueKept (n : AxisId) (kind : ExchangeKind) (s : State) : QueueKept s (countMiss n kind s) := by
  have missed := (updAxis_motion n (fun a => a.missed kind) s).queueKept
  rcases countMiss_cases n kind s with ⟨-, e⟩ | ⟨-, e⟩ <;> rw [e]
  · exact missed.trans (faultAxis_motion _ _ _).queueKept
  · exact missed

theorem missExchange_queueKept (x : Exchange) (s : State) : QueueKept s (missExchange x s) :=
  passTurn_queueKept (.ite (.refl s) (countMiss_queueKept _ _ s))

theorem writeEnds_queueKept (x : Exchange) (s : State) : QueueKept s (writeEnds x s) :=
  passTurn_queueKept (.ite (.refl s) (updAxis_motion _ _ s).queueKept)

/-- A faulting read makes at most one choice, whatever the command behind it is (log entry 27). -/
theorem faultAtRead_queueKept (x : Turn) (cause : FaultCause) (s : State) : QueueKept s (faultAtRead x cause s) := by
  refine QueueKept.trans ?_ (faultAxis_motion _ _ _).queueKept
  rcases meetTrip_spec x cause s with e | e | ⟨f, other, -, -, -, e⟩ <;> rw [e]
  · exact .refl s
  · exact freeIndex_queueKept 1 s
  · exact (freeIndex_queueKept 1 s).trans (tripFlight_motion _ _ _).queueKept

theorem judge_queueKept {x : Turn} {verdict : Option FaultCause} {s : State} {passed : State → State}
    (h : QueueKept s (passed s)) : QueueKept s (judge x verdict s passed) := by
  unfold judge
  split
  · exact faultAtRead_queueKept _ _ s
  · exact h

theorem confirmArming_queueKept (n : AxisId) (s : State) : QueueKept s (confirmArming n s) := by
  rcases confirmArming_cases n s with e | ⟨f, -, -, -, e⟩ <;> rw [e]
  · exact .refl s
  · exact ((updFlight_work f _ s).trans (putFlightState_work _ _ _)).queueKept

theorem supervise_queueKept (x : Turn) (pos : Int) (status : Byte) (s : State) : QueueKept s (supervise x pos status s) := by
  have faulted (cause : FaultCause) := faultAtRead_queueKept x cause s
  unfold supervise
  dsimp only
  split
  case h_1 | h_2 => exact .refl s
  case h_3 => exact .ite (faulted _) (.ite (faulted _) (.ite (updAxis_motion _ _ s).queueKept (.refl s)))
  case h_4 =>
    exact .ite (faulted _) (.ite ((putAxis_motion _ _ s).queueKept.trans (judge_queueKept (confirmArming_queueKept _ _)))
      (judge_queueKept (.refl s)))
  case h_5 => exact .ite (faulted _) (.ite (judge_queueKept (.refl s)) (faulted _))

theorem readArrives_queueKept (x : Exchange) (position : Word) (status check : Byte) (s : State) :
    QueueKept s (readArrives x position status check s) :=
  have stored : QueueKept s (storeRead x.axis position.toInt status s) := (updAxis_motion _ _ s).queueKept
  .ite (passTurn_queueKept (.ite (.refl s) (stored.trans (supervise_queueKept _ _ _ _)))) (missExchange_queueKept x s)

/-! ### The step expiry -/

theorem countSilence_queueKept (st : Station) (s : State) : QueueKept s (countSilence st s) :=
  .ite (.refl s) (.ite (.of_eq rfl rfl) (.of_eq rfl rfl))

theorem flightExpiry_queueKept (late : Station → Bool) (f : FlightId) (s : State) : QueueKept s (flightExpiry late f s) := by
  refine .ite (takeInAnyOrder_queueKept _ (fun path t => ?_) s) (pathStep_work f s).queueKept
  exact .ite (pathStep_work f t).queueKept (restrainFlight_motion f _ t).queueKept

theorem counted_queueKept (s : State) : QueueKept s (counted s) := by
  rw [counted_frame]; exact .of_eq rfl rfl

theorem roundStep_queueKept (s : State) : QueueKept s (roundStep s) := by
  rw [roundStep_frame]; exact .of_eq rfl rfl

theorem stepAll_queueKept (s : State) : QueueKept s (stepAll s) := by
  have flown : QueueKept s (flown s) :=
    (counted_queueKept s).trans (QueueKept.foldl _ _ (fun t f => flightExpiry_queueKept _ f t) _)
  rw [stepAll_eq]
  exact (flown.trans (roundStep_queueKept _)).trans (scannerStep_queueKept _)

end Sys2Proof.Machine
end

section
namespace Sys2Proof.Machine

/-! ### Requests -/

section
variable {st : Station} {flight : Byte} {s : State} {owner : FlightId → State × Answer}

/-- A driving request does what its owner does, or nothing. -/
theorem driving_queueKept (h : ∀ f, QueueKept s (owner f).1) : QueueKept s (driving st flight s owner).1 := by
  rcases driving_cases st flight s owner with ⟨_, -, e⟩ | ⟨f, -, e⟩ <;> rw [e]
  · exact .refl s
  · exact h f

theorem drivingEnabled_queueKept (h : ∀ f, QueueKept s (owner f).1) :
    QueueKept s (drivingEnabled st flight s owner).1 := by
  rcases drivingEnabled_cases st flight s owner with ⟨_, -, e⟩ | ⟨f, -, -, e⟩ <;> rw [e]
  · exact .refl s
  · exact h f

end

section
variable (st : Station) (flight : Byte) (s : State)

theorem serveClaim_queueKept (take : Byte) : QueueKept s (serveClaim st flight take s).1 := by
  unfold serveClaim
  repeat' split
  all_goals exact .of_eq rfl rfl

theorem serveRelease_queueKept : QueueKept s (serveRelease st flight s).1 := by
  unfold serveRelease
  repeat' split
  all_goals exact .of_eq rfl rfl

theorem serveBind_queueKept (axes : List Byte) : QueueKept s (serveBind st flight axes s).1 := by
  unfold serveBind
  repeat' split
  case isFalse => exact (bindMembers_work _ _ s).queueKept
  all_goals exact .refl s

theorem serveUnbind_queueKept : QueueKept s (serveUnbind st flight s).1 :=
  driving_queueKept fun f => by
    split
    · exact (unbindMembers_work f s).queueKept
    · exact .refl s

theorem configureAxis_queueKept (n : AxisId) (p : AxisParams) (s : State) : QueueKept s (configureAxis n p s) :=
  have motion := configureAxis_motion n p s
  .of_eq motion.pending motion.freeIndex

theorem serveConfigureAxis_queueKept (axis address : Byte) (lower upper vmax : Word) (amax : Half) (window : Word) (slot : Byte) :
    QueueKept s (serveConfigureAxis st axis address lower upper vmax amax window slot s).1 := by
  unfold serveConfigureAxis
  dsimp only
  repeat' split
  case isFalse => exact configureAxis_queueKept _ _ s
  all_goals exact .refl s

theorem serveSetFlightLimits_queueKept (decel lo hi : Half) : QueueKept s (serveSetFlightLimits st flight decel lo hi s).1 := by
  unfold serveSetFlightLimits
  split
  · exact .refl s
  · exact driving_queueKept fun f => (updFlight_motion f _ s).queueKept

theorem serveArm_queueKept : QueueKept s (serveArm st flight s).1 :=
  drivingEnabled_queueKept fun f => by
    repeat' split
    case isFalse => exact (armFlight_work f s).queueKept
    all_goals exact .refl s

theorem serveGo_queueKept : QueueKept s (serveGo st flight s).1 := by
  rcases serveGo_cases st flight s with ⟨_, -, e⟩ | ⟨f, -, e⟩ <;> rw [e]
  · exact .refl s
  · exact (startHead_work _ f s).queueKept

theorem serveResume_queueKept : QueueKept s (serveResume st flight s).1 :=
  drivingEnabled_queueKept fun f => by
    repeat' split
    case isFalse => exact (resumeFlight_work f s).queueKept
    all_goals exact .refl s

theorem serveCancel_queueKept : QueueKept s (serveCancel st flight s).1 :=
  driving_queueKept fun f => by
    split
    · exact ((updFlight_work f _ s).trans (putFlightState_work _ _ _)).queueKept
    · exact .refl s

theorem servePark_queueKept : QueueKept s (servePark st flight s).1 :=
  driving_queueKept fun f => by
    split
    · exact (parkFlight_work f s).queueKept
    · exact .refl s

theorem serveResetFlight_queueKept : QueueKept s (serveResetFlight st flight s).1 :=
  driving_queueKept fun f => by
    repeat' split
    case isFalse => exact (resetTripped_work f s).queueKept
    all_goals exact .refl s

theorem serveHold_queueKept : QueueKept s (serveHold st flight s).1 := by
  unfold serveHold
  split
  · exact .refl s
  · exact (holdFlight_motion _ _ s).queueKept

theorem serveStop_queueKept : QueueKept s (serveStop st flight s).1 := by
  unfold serveStop
  repeat' split
  · exact (tripEvery_spec _ s).2.1.queueKept
  · exact .refl s
  · exact (tripFlight_motion _ _ s).queueKept

theorem serveAppend_queueKept (tag : Half) (presence : Byte) (t0 t1 t2 t3 vmax : Word) (aUp aDn dwell : Half) (start flags : Byte) :
    QueueKept s (serveAppend st flight tag presence t0 t1 t2 t3 vmax aUp aDn dwell start flags s).1 := by
  unfold serveAppend
  split
  · exact .refl s
  · refine driving_queueKept fun f => ?_
    repeat' split
    all_goals exact .of_eq rfl rfl

theorem serveFlush_queueKept : QueueKept s (serveFlush st flight s).1 :=
  driving_queueKept fun f => by split <;> exact .of_eq rfl rfl

theorem serveSetLink_queueKept (link source condition action target : Byte) :
    QueueKept s (serveSetLink link source condition action target s).1 := by
  unfold serveSetLink
  split
  · exact writeLink_queueKept _ _ s
  · exact .refl s

theorem serveClearLink_queueKept (link : Byte) : QueueKept s (serveClearLink link s).1 := by
  unfold serveClearLink
  split
  · exact .refl s
  · exact clearEntry_queueKept _ s

theorem serveSetSlot_queueKept (slot input enabled : Byte) (tare high low slack : Half) :
    QueueKept s (serveSetSlot slot input enabled tare high low slack s).1 := by
  unfold serveSetSlot
  repeat' split
  all_goals exact .of_eq rfl rfl

theorem serveScan_queueKept (mode : Byte) : QueueKept s (serveScan mode s).1 := by
  unfold serveScan
  split
  · exact .refl s
  · exact startScan_queueKept _ s

theorem serveInject_queueKept (slot : Byte) (raw : Half) : QueueKept s (serveInject slot raw s).1 := by
  unfold serveInject
  repeat' split
  · exact .refl s
  · exact newResult_queueKept _ _ _ s
  · exact .refl s

theorem serveReadFlight_queueKept : QueueKept s (serveReadFlight flight s).1 := by
  unfold serveReadFlight
  split <;> exact .refl s

theorem serveReadAxis_queueKept (axis : Byte) : QueueKept s (serveReadAxis axis s).1 := by
  unfold serveReadAxis
  split <;> exact .refl s

theorem serveReadLines_queueKept (filters : Option Half) : QueueKept s (serveReadLines st filters s).1 := by
  cases filters with
  | none => exact .of_eq rfl rfl
  | some w => exact (writeFilters_queueKept w s).trans (updPort_motion _ _ _).queueKept

end

theorem serveRequest_queueKept (i : Instr) (s : State) : QueueKept s (serveRequest i s).1 := by
  cases i with
  | claim => exact serveClaim_queueKept _ _ s _
  | release => exact serveRelease_queueKept _ _ s
  | bind => exact serveBind_queueKept _ _ s _
  | unbind => exact serveUnbind_queueKept _ _ s
  | configureAxis => exact serveConfigureAxis_queueKept _ s _ _ _ _ _ _ _ _
  | setFlightLimits => exact serveSetFlightLimits_queueKept _ _ s _ _ _
  | arm => exact serveArm_queueKept _ _ s
  | go => exact serveGo_queueKept _ _ s
  | resume => exact serveResume_queueKept _ _ s
  | cancel => exact serveCancel_queueKept _ _ s
  | park => exact servePark_queueKept _ _ s
  | resetFlight => exact serveResetFlight_queueKept _ _ s
  | openCue | closeCue => exact driving_queueKept fun f => (updFlight_motion f _ s).queueKept
  | hold => exact serveHold_queueKept _ _ s
  | holdAll => exact (holdEvery_spec _ s).2.1.queueKept
  | stop => exact serveStop_queueKept _ _ s
  | append => exact serveAppend_queueKept _ _ s _ _ _ _ _ _ _ _ _ _ _ _
  | flush => exact serveFlush_queueKept _ _ s
  | setLink => exact serveSetLink_queueKept s _ _ _ _ _
  | clearLink => exact serveClearLink_queueKept s _
  | setSlot => exact serveSetSlot_queueKept s _ _ _ _ _ _ _
  | scan => exact serveScan_queueKept s _
  | inject => exact serveInject_queueKept s _ _
  | readFlight => exact serveReadFlight_queueKept _ s
  | readAxis => exact serveReadAxis_queueKept s _
  | readLines => exact serveReadLines_queueKept _ s _
  | status | readSlots => exact (updPort_motion _ _ s).queueKept
  | _ => exact .refl s

/-! ### Ports -/

theorem takeRequest_queueKept {serve : State → State × Answer} (st : Station) (kind : Byte) (h : ∀ s, QueueKept s (serve s).1)
    (s : State) : QueueKept s (takeRequest st kind serve s) := (h s).trans (updPort_motion _ _ _).queueKept

/-- A request row completes: its request is taken, or its port does not hear it. -/
theorem onRequest_completes {serve : State → State × Answer} (st : Station) (kind : Byte) (h : ∀ s, QueueKept s (serve s).1)
    (s : State) : ∃ t, onRequest st kind serve s = .next t ∧ QueueKept s t :=
  have heard : QueueKept s (markHeard st s) := .of_eq rfl rfl
  ⟨_, rfl, .ite (.refl s) (heard.trans (takeRequest_queueKept st kind h _))⟩

theorem takeFrame_queueKept (st : Station) (fr : Frame) (s : State) : QueueKept s (takeFrame st fr s) := by
  unfold takeFrame
  split
  · exact takeRequest_queueKept _ _ .refl s
  · exact takeRequest_queueKept _ _ .refl s
  · exact takeRequest_queueKept _ _ (serveRequest_queueKept _) s

theorem placeFrame_queueKept (st : Station) (fr : Frame) (s : State) : QueueKept s (placeFrame st fr s) := by
  have heard : QueueKept s (markHeard st (s.updPort st fun p => { p with stage := .hunting, assembly := .empty })) :=
    .of_eq rfl rfl
  unfold placeFrame
  dsimp only
  repeat' split
  · exact (updPort_motion _ _ s).queueKept
  · exact heard.trans (takeFrame_queueKept _ _ _)
  · exact heard.trans (updPort_motion _ _ _).queueKept

theorem byteArrives_queueKept (st : Station) (b : Byte) (stopOk : Bool) (s : State) : QueueKept s (byteArrives st b stopOk s) := by
  have ported (g : Port → Port) : QueueKept s (s.updPort st g) := (updPort_motion st g s).queueKept
  refine .ite ?_ (ported _)
  unfold receiveByte
  dsimp only
  split
  case h_1 => exact .ite (ported _) (.refl s)
  case h_2 => exact .ite (ported _) (ported _)
  case h_3 => exact ported _
  case h_4 => exact .ite (ported _) (.ite (placeFrame_queueKept _ _ s) (ported _))

theorem replyEnds_queueKept (st : Station) (s : State) : QueueKept s (replyEnds st s) := by
  unfold replyEnds
  split
  · exact (updPort_motion _ _ s).queueKept
  · exact (updPort_motion _ _ s).queueKept.trans (takeFrame_queueKept _ _ _)

/-! ### Every command -/

/-- Every command has a next state, with the same queue behind it and no choice taken back. -/
theorem exec_completes (i : Instr) (s : State) : ∃ t, exec i s = .next t ∧ QueueKept s t := by
  cases e : encodeRequest i with
  | some frame =>
    obtain ⟨st, kind, body⟩ := frame
    rw [exec_request s e]
    exact onRequest_completes _ _ (serveRequest_queueKept i) s
  | none =>
    cases i <;> first | (cases e; done) | skip
    case readLines st filters => cases filters <;> cases e
    case unknownKind st kind =>
      show ∃ t, execUnknownKind st kind s = .next t ∧ QueueKept s t
      unfold execUnknownKind
      split
      · exact ⟨s, rfl, .refl s⟩
      · exact onRequest_completes _ _ .refl s
    all_goals refine ⟨_, rfl, ?_⟩
    case resetnAssert => exact .of_eq rfl rfl
    case resetEnd => exact .ite (releaseReset_queueKept s) (.refl s)
    case byteReceived => exact .ite (.refl s) (byteArrives_queueKept _ _ _ s)
    case gap => exact .ite (.refl s) (updPort_motion _ _ s).queueKept
    case replySent => exact .ite (.refl s) (replyEnds_queueKept _ s)
    case stepExpiry => exact .ite (stepAll_queueKept s) (.refl s)
    case silence => exact .ite ((countSilence_queueKept _ s).trans (restrainClaimed_queueKept _ _ _)) (.refl s)
    case rawLevelChange => exact rawChange_queueKept _ _ s
    case lineSettle => exact .ite (settleLine_queueKept _ s) (.refl s)
    case dwellExpiry f =>
      split
      · exact .ite (endDwell_work f s).queueKept (.refl s)
      · exact .refl s
    case brakeTimeout f =>
      split
      · exact .ite (tripFlight_motion f _ s).queueKept (.refl s)
      · exact .refl s
    case sndrPhaseExpiry =>
      split
      · exact .ite (.of_eq rfl rfl) (.refl s)
      all_goals exact .refl s
    case exchangeStart =>
      repeat' split
      all_goals exact .of_eq rfl rfl
    case heldLine =>
      split
      · exact .ite (.refl s) (passTurn_queueKept (countMiss_queueKept _ _ s))
      · exact .refl s
    case writeComplete =>
      split
      · exact .ite (writeEnds_queueKept _ s) (.refl s)
      · exact .refl s
    case readComplete =>
      split
      · exact .ite (readArrives_queueKept _ _ _ _ s) (.refl s)
      · exact .refl s
    case answerHoldTimeout =>
      split
      · exact .ite (missExchange_queueKept _ s) (.refl s)
      · exact .refl s
    case missedExchange =>
      split
      · exact .ite (.refl s) (missExchange_queueKept _ s)
      · exact .refl s
    case filterAccept =>
      split
      · exact .ite (acceptChange_queueKept _ _ s) (.refl s)
      all_goals exact .refl s
    case conversionComplete =>
      split
      · exact .ite (.refl s) ((newResult_queueKept _ _ _ s).trans (nextConversion_queueKept _ _))
      all_goals exact .refl s

/-- Settles O2: each command is a composition of operations that keep the queue and count choices up. -/
theorem everyCommandCompletes : Obligations.EveryCommandCompletes := by
  intro c s
  obtain ⟨t, run, pending, counted⟩ := exec_completes c s
  exact ⟨t, run, pending, counted⟩

/-! ### The step -/

theorem step_front {c : Instr} {rest : List Instr} {s : State} (front : s.pending = c :: rest) :
    step s = exec c { s with pending := rest } := by
  rw [step, front]

theorem step_idle {s : State} (empty : s.pending = []) : step s = .next s := by
  rw [step, empty]

/-- Settles O1: the two branches of the step, by the queue. -/
theorem stepTakesTheFront : Obligations.StepTakesTheFront :=
  ⟨fun c rest s => step_front (s := { s with pending := c :: rest }) rfl, fun _ => step_idle⟩

end Sys2Proof.Machine
end
